-- ==== Sys2Proof/Word.lean ====
section
/-! DEFINITION. The plain types of the engine: bytes, symbols, 64-bit register values, node
frequencies and bit strings (00_scope.md R8, R9, R11). -/

namespace Sys2Proof

/-- One byte of a stream (00_scope.md R8, SYM_BITS = 8). -/
abbrev Byte := BitVec 8

/-- A symbol: "one raw byte value", unsigned (00_scope.md R14). -/
abbrev Symbol := BitVec 8

/-- The value of a host register (REG_W = 64) or of a stored count (FREQ_W = CNT_W = 64). -/
abbrev Word := BitVec 64

/-- The frequency of a tree node (NODE_FREQ_W = 72, 41_tree.md R126). -/
abbrev NodeFreq := BitVec 72

/-- A bit string, first bit first; `true` is the character '1' (00_scope.md R11). -/
abbrev BitString := List Bool

end Sys2Proof
end

