-- ==== Sys2Proof/Syntax.lean ====
section
/-! DEFINITION. The commands of the engine, one constructor per row of the opcode table (30_encoding.md R93), with
the operands of the assembler lines (R97). -/

namespace Sys2Proof

/-- A command. Operands are the numbers an assembler line carries (30_encoding.md R97); `Instr.wellFormed` says
which ones have an encoding. -/
inductive Instr where
  /-- FT_CLEAR: empty the frequency table (R110). -/
  | ftClear
  /-- FT_SCAN: count the unread input bytes into the table (R111). -/
  | ftScan
  /-- IN_REWIND: reset the input position (R112). -/
  | inRewind
  /-- TREE_BUILD: build the tree from the table (R120). -/
  | treeBuild
  /-- LOOKUP_S2C sym: read the code of one symbol (R135). -/
  | lookupS2c (sym : Nat)
  /-- LOOKUP_C2S: read the symbol of the code in CODEV (R136). -/
  | lookupC2s
  /-- PACK: encode the unread input bytes onto the output (R150). -/
  | pack
  /-- GETBIT b, i: extract bit i of byte b (R161). -/
  | getbit (b idx : Nat)
  /-- UNPACK: decode SYM_COUNT symbols onto the output (R162). -/
  | unpack
  /-- HDR_WRITE: write the container header (R183). -/
  | hdrWrite
  /-- HDR_READ: read a container header into the table (R184). -/
  | hdrRead
  /-- COMPRESS: compress the whole attached input (R200). -/
  | compress
  /-- DECOMPRESS: decompress the attached container (R202). -/
  | decompress
  deriving DecidableEq, Repr

end Sys2Proof
end

