-- ==== Sys2Proof/WellFormed.lean ====
section
/-! DEFINITION. Which instruction terms have a command word: "for b ≤ 255 and i ≤ 15. An operand out of those ranges
is an assembly error" (30_encoding.md R97). -/

namespace Sys2Proof

/-- An operand that fits the SYM field (30_encoding.md R91, R92). -/
def symOperandOk (sym : Nat) : Bool := decide (sym ≤ 255)

/-- An operand that fits the IDX field (30_encoding.md R91, R92). Index 0 and 9 to 15 fit: they are legal words, and
GETBIT reports them at execution (R92). -/
def idxOperandOk (idx : Nat) : Bool := decide (idx ≤ 15)

/-- The instruction has a command word (30_encoding.md R94, R97). -/
def Instr.wellFormed : Instr → Bool
  | .ftClear => true
  | .ftScan => true
  | .inRewind => true
  | .treeBuild => true
  | .lookupS2c sym => symOperandOk sym
  | .lookupC2s => true
  | .pack => true
  | .getbit b idx => symOperandOk b && idxOperandOk idx
  | .unpack => true
  | .hdrWrite => true
  | .hdrRead => true
  | .compress => true
  | .decompress => true

end Sys2Proof
end

