-- ==== Sys2Proof/Decode.lean ====
section
/-! DEFINITION. From a command word (the 64-bit value of one CMD write) to a command, or to the named reason why the
word is illegal, and back (30_encoding.md R90 to R96). -/

namespace Sys2Proof

/-! ## The fields of the command word (R91) -/

/-- OPC, bits 7:0. -/
def opcOf (w : Word) : BitVec 8 := w.extractLsb' 0 8

/-- SYM, bits 15:8. -/
def symOf (w : Word) : BitVec 8 := w.extractLsb' 8 8

/-- IDX, bits 19:16. -/
def idxOf (w : Word) : BitVec 4 := w.extractLsb' 16 4

/-- RSVD and RSVD_HI together, bits 63:20: "CMD[63:20] = 0" (R94). -/
def reservedOf (w : Word) : BitVec 44 := w.extractLsb' 20 44

/-! ## Decoding -/

/-- Why a command word is illegal (R95): "an unassigned OPC, a nonzero reserved bit, and a nonzero unused operand
field". -/
inductive DecodeError where
  /-- A bit of CMD[63:20] is 1. -/
  | reservedBits
  /-- OPC is none of the thirteen opcodes of R93. -/
  | unassignedOpcode (opc : Nat)
  /-- SYM ≠ 0 in a command that does not use it. -/
  | unusedSym
  /-- IDX ≠ 0 in a command that does not use it. -/
  | unusedIdx
  deriving DecidableEq, Repr

/-- IDX must be 0 (R94). -/
def withoutIdx (w : Word) (i : Instr) : Except DecodeError Instr :=
  if idxOf w = 0 then .ok i else .error .unusedIdx

/-- SYM and IDX must be 0 (R94). -/
def withoutOperands (w : Word) (i : Instr) : Except DecodeError Instr :=
  if symOf w = 0 then withoutIdx w i else .error .unusedSym

/-- "Decoding is exact" (R94): the command a word selects, or why it is illegal (R95). It reads the word alone
(R96). -/
def decode (w : Word) : Except DecodeError Instr :=
  if reservedOf w ≠ 0 then .error .reservedBits
  else
    match (opcOf w).toNat with
    | 0x01 => withoutOperands w .ftClear
    | 0x02 => withoutOperands w .ftScan
    | 0x03 => withoutOperands w .inRewind
    | 0x10 => withoutOperands w .treeBuild
    | 0x11 => withoutIdx w (.lookupS2c (symOf w).toNat)
    | 0x12 => withoutOperands w .lookupC2s
    | 0x20 => withoutOperands w .pack
    | 0x30 => .ok (.getbit (symOf w).toNat (idxOf w).toNat)
    | 0x31 => withoutOperands w .unpack
    | 0x40 => withoutOperands w .hdrWrite
    | 0x41 => withoutOperands w .hdrRead
    | 0x50 => withoutOperands w .compress
    | 0x51 => withoutOperands w .decompress
    | opc => .error (.unassignedOpcode opc)

/-! ## Encoding -/

/-- The opcode of a command (R93). -/
def Instr.opcode : Instr → Nat
  | .ftClear => 0x01
  | .ftScan => 0x02
  | .inRewind => 0x03
  | .treeBuild => 0x10
  | .lookupS2c _ => 0x11
  | .lookupC2s => 0x12
  | .pack => 0x20
  | .getbit _ _ => 0x30
  | .unpack => 0x31
  | .hdrWrite => 0x40
  | .hdrRead => 0x41
  | .compress => 0x50
  | .decompress => 0x51

/-- The operand in the SYM field, 0 where the command has none (R91, R94). -/
def Instr.symOperand : Instr → Nat
  | .lookupS2c sym => sym
  | .getbit b _ => b
  | .ftClear | .ftScan | .inRewind | .treeBuild | .lookupC2s | .pack | .unpack | .hdrWrite | .hdrRead
  | .compress | .decompress => 0

/-- The operand in the IDX field, 0 where the command has none (R91, R94). -/
def Instr.idxOperand : Instr → Nat
  | .getbit _ idx => idx
  | .ftClear | .ftScan | .inRewind | .treeBuild | .lookupS2c _ | .lookupC2s | .pack | .unpack | .hdrWrite | .hdrRead
  | .compress | .decompress => 0

/-- The command word of an instruction: `OPC | (SYM << 8) | (IDX << 16)` (R91, R97). -/
def encode (i : Instr) : Word :=
  BitVec.ofNat 64 (i.opcode ||| (i.symOperand <<< 8) ||| (i.idxOperand <<< 16))

/-! ## The opcode table's numbering -/

/-- The value a CMD write carries for an instruction whose table word is `w`: the table gives 32 bits, and
CMD[63:32] is 0 (R90). -/
def tableValue (nbits w : Nat) : Nat := w % 2 ^ nbits

/-- The instruction the decoder reads from the bits `w` of a table row. -/
def decodeTableWord (nbits w : Nat) : Option Instr :=
  if tableValue nbits w < 2 ^ 64 then (decode (BitVec.ofNat 64 (tableValue nbits w))).toOption else none

end Sys2Proof
end

