-- ==== Sys2Proof/Config.lean ====
section
/-! DEFINITION. The engine's parameters (00_scope.md R8) and the one free value of the spec
(70_reset_and_hazards.md R250). A constant without a body is uninterpreted: no proof can see its value. -/

namespace Sys2Proof.Config

/-- NSYM, the size of the alphabet. -/
def nsym : Nat := 256

/-- MAX_NODES, the size of the node arena. -/
def maxNodes : Nat := 511

/-- CODE_MAX, the longest code in bits. -/
def codeMax : Nat := 255

/-- MAX_STREAM, the longest attachable input. DESIGN CHOICE (log 6), unsafe: the spec makes it a parameter of at
most 2^56 − 1 and the model takes that default. -/
def maxStream : Nat := 2 ^ 56 - 1

/-- The size in bytes of the register window (20_memory.md R70). -/
def windowBytes : Nat := 4096

/-- BLOCK_BASE, the host address of register offset 0: OPEN in the spec (00_scope.md R8), so uninterpreted here
(log 7), safe. -/
opaque blockBase : Nat

/-- How many of the bytes an abandoned command would have appended stay on OUT when a reset arrives while BUSY = 1,
for the n-th such reset (70_reset_and_hazards.md R250). A FREE VALUE (log 5), safe. -/
opaque resetPrefix : Nat → Nat

end Sys2Proof.Config
end

