-- ==== Sys2Proof/Machine/State.lean ====
section
/-! DEFINITION. The state of the engine and of its host as plain data (10_state.md, 20_memory.md R76), why a step has no
meaning, and the state right after reset (70_reset_and_hazards.md R251). -/

namespace Sys2Proof.Machine

/-- Why the machine stops with a fault: never. "No item of this spec is treated as stuck" (93_implementation_defined.md),
and an error of a command is a completion status, a next state (60_exceptions.md R220). Safe. -/
inductive Fault
  deriving DecidableEq, Repr

/-- Why a step has no meaning. The last four are the refusals of 60_exceptions.md R229. -/
inductive Refusal where
  /-- Raised by exec's arm of an instruction without a meaning (none in this model). Safe. -/
  | notModelled (mnemonic : String)
  /-- Raised by a host access of another width than 8 bytes, misaligned, unmapped or outside the window
  (20_memory.md R71). Safe: "the model gives the host no step for it". -/
  | badAccess
  /-- Raised by a host action other than a STATUS read or a reset while BUSY = 1 (20_memory.md R75). Safe. -/
  | busyAccess
  /-- Raised by an Attach of more than MAX_STREAM bytes (20_memory.md R76, 60_exceptions.md R229). Safe. -/
  | attachTooLong
  /-- Raised by FT_SCAN where a count would pass 2^64 − 1 (40_freq_table.md R111). Safe. -/
  | countOverflow
  deriving DecidableEq, Repr

/-- A record of the node arena (10_state.md R45). Child indices are numbers below 511 (log 8). -/
inductive Node where
  /-- kind LEAF: a symbol and its frequency. -/
  | leaf (sym : Symbol) (freq : NodeFreq)
  /-- kind INTERNAL: the sum of the children's frequencies, and the two child indices. -/
  | internal (freq : NodeFreq) (left right : Nat)
  deriving DecidableEq, Repr

/-- What the host does (20_memory.md R76). An access carries its absolute address and its width in bytes, so that
the refused ones of R71 can be written down. -/
inductive HostAction where
  /-- MemRead(addr, width). -/
  | read (addr width : Nat)
  /-- MemWrite(addr, width, v). -/
  | write (addr width : Nat) (v : Word)
  /-- Attach(bytes). -/
  | attach (bytes : List Byte)
  /-- Detach. -/
  | detach
  /-- Drain. -/
  | drain
  /-- Reset. -/
  | reset
  /-- SETKEY s: a read of the PRESENT register of s and a write back with its bit set, with the engine idle between
  the two (30_encoding.md R98; log 19). -/
  | setKey (sym : Symbol)
  deriving DecidableEq, Repr

/-- The next thing the host does, and when it comes (log 2). No rule fixes how the host's moves fall against the
engine's one step, so each move says so itself. -/
inductive HostMove where
  /-- One action. An `early` one is taken even while a command is pending (BUSY = 1); another is taken once no command
  is pending. -/
  | act (early : Bool) (action : HostAction)
  /-- POLL: "repeat `RD 0x008` until bit 0 (BUSY) reads 0" (30_encoding.md R98). `busyReads` of its reads may come
  while a command is pending. -/
  | poll (busyReads : Nat)
  deriving DecidableEq, Repr

/-- What the host gets back (20_memory.md R76): a register value, or the bytes OUT held. -/
inductive HostReply where
  | value (v : Word)
  | bytes (bs : List Byte)
  deriving DecidableEq, Repr

/-- The whole machine at a step boundary. -/
structure State where
  /-- CMD (R23): the last command word the host wrote. -/
  cmd : Word
  /-- STATUS.BUSY (R24): a command is pending. -/
  busy : Bool
  /-- STATUS.DONE (R24). -/
  done : Bool
  /-- STATUS.ERR (R24). -/
  err : Bool
  /-- STATUS.ERRCODE (R24). -/
  errcode : BitVec 8
  /-- STATUS.TREE_BUILT (R24). -/
  treeBuilt : Bool
  /-- STATUS.ROOT_VALID (R24). -/
  rootValid : Bool
  /-- STATUS.S2C_VALID (R24, R52). -/
  s2cValid : Bool
  /-- STATUS.C2S_VALID (R24, R52). -/
  c2sValid : Bool
  /-- IN_AVAIL (R41): an input stream is attached; STATUS.IN_AVAIL mirrors it. -/
  inAvail : Bool
  /-- SYM_COUNT (R25). -/
  symCount : Word
  /-- RPT_ORIG (R27). -/
  rptOrig : Word
  /-- RPT_PACKED (R27). -/
  rptPacked : Word
  /-- RPT_HDR (R27). -/
  rptHdr : Word
  /-- LK_CTRL.LEN (R28). -/
  lkLen : BitVec 9
  /-- LK_CTRL.HIT (R28). -/
  lkHit : Bool
  /-- LK_CTRL.SYM (R28). -/
  lkSym : Symbol
  /-- CODEV, the value LK_CODE0 to LK_CODE3 hold together (R29). -/
  codev : BitVec 256
  /-- GB_RESULT's bit 0 (R32); its other bits read as 0. -/
  gbResult : BitVec 1
  /-- PRESENT, the key-presence bitmap PRESENT0 to PRESENT3 hold together (R31). -/
  present : BitVec 256
  /-- FREQ (R30). -/
  freq : Vector Word 256
  /-- IN_DATA (R40). -/
  inData : List Byte
  /-- in_ptr (R40), read as IN_POS (R33). -/
  inPtr : Word
  /-- OUT (R42), oldest byte first. -/
  out : List Byte
  /-- The node records in use, NODE[0..NODE_COUNT−1] (R45). -/
  arena : List Node
  /-- ROOT (R45); `none` is NONE. -/
  root : Option Nat
  /-- The symbol→code table (R50); `none` is valid = 0. -/
  s2c : Vector (Option BitString) 256
  /-- The code→symbol table (R51) as pairs. -/
  c2s : List (BitString × Symbol)
  /-- The model's own: the host's remaining actions, next first (log 2). -/
  hostQueue : List HostMove
  /-- The model's own: what the host has got back, oldest first (log 2). -/
  hostReplies : List HostReply
  /-- The model's own: how many free values have been drawn (log 5). -/
  draws : Nat
  deriving DecidableEq, Repr

/-- The state at power-on, which is the state right after reset (70_reset_and_hazards.md R250, R251). The contents
of `s2c` and `c2s` are the model's choice (log 9), `out` is DEDUCED (log 12), and the last three fields are the
model's own (log 2, log 5). -/
def State.reset : State where
  cmd := 0
  busy := false
  done := false
  err := false
  errcode := 0
  treeBuilt := false
  rootValid := false
  s2cValid := false
  c2sValid := false
  inAvail := false
  symCount := 0
  rptOrig := 0
  rptPacked := 0
  rptHdr := 0
  lkLen := 0
  lkHit := false
  lkSym := 0
  codev := 0
  gbResult := 0
  present := 0
  freq := Vector.replicate 256 0
  inData := []
  inPtr := 0
  out := []
  arena := []
  root := none
  s2c := Vector.replicate 256 none
  c2s := []
  hostQueue := []
  hostReplies := []
  draws := 0

end Sys2Proof.Machine
end

