-- ==== Sys2Proof/Machine/Ops.lean ====
section
/-! DEFINITION. The named operations every command is written over: bit strings and byte order, the streams, the
frequency table, command acceptance, the one error abort, completion, and command bodies in sequence. -/

namespace Sys2Proof.Machine

/-! ## Bit strings (00_scope.md R11) -/

/-- `val(c)`: the string read as a binary numeral, first character most significant. -/
def bitVal (c : BitString) : Nat := c.foldl (fun v b => 2 * v + b.toNat) 0

/-- The bit string of length `len` whose value is `v mod 2^len`. -/
def bitsOf : Nat → Nat → BitString
  | 0, _ => []
  | len + 1, v => v.testBit len :: bitsOf len v

/-! ## Little-endian header integers and byte lanes (20_memory.md R74, 44_container.md R180) -/

/-- The `n` low bytes of `v`, least significant first: byte j holds bits 8j+7:8j. -/
def leBytes : Nat → Nat → List Byte
  | 0, _ => []
  | n + 1, v => BitVec.ofNat 8 v :: leBytes n (v / 256)

/-- The number whose bytes are given, least significant first. -/
def ofLeBytes : List Byte → Nat
  | [] => 0
  | b :: bs => b.toNat + 256 * ofLeBytes bs

/-- Byte lane `j` of a register transfer carries bits 8j+7:8j (20_memory.md R74). -/
def byteLane (v : Word) (j : Nat) : Byte := v.extractLsb' (8 * j) 8

/-! ## The input stream (10_state.md R40, 20_memory.md R77) -/

/-- The bytes InRead has still to give, next first: IN_DATA from in_ptr on. InRead returns its head, and EOS where
it is empty. -/
def State.unread (s : State) : List Byte := s.inData.drop s.inPtr.toNat

/-- in_ptr after `k` successful InReads: "Every read moves exactly one byte". -/
def State.consume (s : State) (k : Nat) : State :=
  { s with inPtr := BitVec.ofNat 64 (s.inPtr.toNat + k) }

/-- in_ptr <- 0. -/
def State.rewind (s : State) : State := { s with inPtr := 0 }

/-- InRead64 on the unread bytes (44_container.md R180): the integer and what is left, or none where EOS comes
within its 8 bytes. -/
def inRead64 (unread : List Byte) : Option (Word × List Byte) :=
  if unread.length < 8 then none
  else some (BitVec.ofNat 64 (ofLeBytes (unread.take 8)), unread.drop 8)

/-! ## The output stream (20_memory.md R78) -/

/-- OutWrite of each byte, in order: OUT <- OUT ++ bytes. -/
def State.outWrite (s : State) (bytes : List Byte) : State := { s with out := s.out ++ bytes }

/-- The bytes OutWrite64(v) appends (44_container.md R180). -/
def outBytes64 (v : Word) : List Byte := leBytes 8 v.toNat

/-! ## The frequency table (10_state.md R30, R31, R35) -/

/-- All symbols in the natural key order 0, 1, …, 255 (R35). -/
def allSymbols : List Symbol := (List.range 256).map (BitVec.ofNat 8)

/-- PRESENT[s] = 1. -/
def State.isKey (s : State) (b : Symbol) : Bool := s.present.getLsbD b.toNat

/-- FREQ[s]. -/
def State.freqOf (s : State) (b : Symbol) : Word := s.freq[b.toNat]'b.isLt

/-- The keys of the frequency table in natural key order (R35). -/
def State.keys (s : State) : List Symbol := allSymbols.filter s.isKey

/-- popcount(v) (00_scope.md R10). -/
def popcount (v : BitVec 256) : Nat := ((List.range 256).filter v.getLsbD).length

/-- PRESENT[b] <- 1; FREQ[b] <- f. -/
def State.setEntry (s : State) (b : Symbol) (f : Word) : State :=
  { s with
    present := s.present ||| (1#256 <<< b.toNat)
    freq := s.freq.set b.toNat f b.isLt }

/-- FREQ and PRESENT all 0: the empty table (R36). -/
def State.clearTable (s : State) : State :=
  { s with present := 0, freq := Vector.replicate 256 0 }

/-- `Invalidate()` (45_orchestration.md R200): discard the tree and both code tables. -/
def State.invalidate (s : State) : State :=
  { s with
    treeBuilt := false
    rootValid := false
    s2cValid := false
    c2sValid := false
    root := none
    arena := [] }

/-! ## Acceptance, abort and completion (20_memory.md R73, 60_exceptions.md R226, R228) -/

/-- The error kinds of 60_exceptions.md R221. -/
inductive EngineError where
  /-- ERR_INPUT: no input attached. -/
  | input
  /-- ERR_CORRUPT: the payload ran out before the expected symbol count. -/
  | corrupt
  /-- ERR_ARG: bit index outside 1..8. -/
  | arg
  /-- ERR_ILLEGAL: illegal command word. -/
  | illegal
  /-- ERR_NOTREE: a tree query with no built tree. -/
  | noTree
  /-- ERR_HEADER: malformed header. -/
  | header
  /-- ERR_NOCODE: an input byte with no code. -/
  | noCode
  deriving DecidableEq, Repr

/-- The code written to STATUS.ERRCODE (R221). -/
def errorCode : EngineError → BitVec 8
  | .input => 1
  | .corrupt => 2
  | .arg => 3
  | .illegal => 4
  | .noTree => 5
  | .header => 6
  | .noCode => 7

/-- An admitted CMD write (R73). It is also the only return from an error (R228): it clears DONE, ERR and ERRCODE. -/
def State.acceptCommand (s : State) (v : Word) : State :=
  { s with cmd := v, done := false, err := false, errcode := 0, busy := true }

/-- Completion (R228): BUSY <- 0; DONE <- 1. ERR and ERRCODE stay as they are (log 20). -/
def State.complete (s : State) : State := { s with busy := false, done := true }

/-- `raise E` (R226): record the error and complete the command; every write made before stays. This is the engine's
whole exception entry (R220). -/
def State.raise (s : State) (e : EngineError) : State :=
  State.complete { s with err := true, errcode := errorCode e }

/-! ## Command bodies -/

/-- How the pseudocode of a command ends: at its end, at a `raise`, or at REFUSED. The state is the one the
pseudocode has written so far. -/
inductive Body where
  | done (s : State)
  | raised (e : EngineError) (s : State)
  | refused (r : Refusal)

/-- One body after another: a `raise` or REFUSED in the first ends both (R226). -/
def Body.andThen : Body → (State → Body) → Body
  | .done s, k => k s
  | .raised e s, _ => .raised e s
  | .refused r, _ => .refused r

/-- The outcome of a command with that body: completion (R228), the abort (R226), or a refusal (R229). -/
def Body.finish : Body → Host.Outcome State Fault Refusal
  | .done s => .next s.complete
  | .raised e s => .next (s.raise e)
  | .refused r => .refused r

/-- `if IN_AVAIL = 0: raise ERR_INPUT()` before the body (R222). -/
def requireInput (body : State → Body) (s : State) : Body :=
  if s.inAvail then body s else .raised .input s

/-- `if STATUS.TREE_BUILT = 0: raise ERR_NOTREE()` before the body (R225). -/
def requireTree (body : State → Body) (s : State) : Body :=
  if s.treeBuilt then body s else .raised .noTree s

end Sys2Proof.Machine
end

