-- ==== Sys2Proof/Machine/Flags.lean ====
section
/-! DEFINITION. The registers made of flags, as the host reads them: STATUS and LK_CTRL (10_state.md R24, R28, R57).
Reserved bits read as 0 (R34). -/

namespace Sys2Proof.Machine

/-- STATUS (R24), from bit 63 down: reserved, ERRCODE, IN_AVAIL, C2S_VALID, S2C_VALID, ROOT_VALID, TREE_BUILT, ERR,
DONE, BUSY. -/
def State.statusWord (s : State) : Word :=
  (0#48 ++ s.errcode ++ BitVec.ofBool s.inAvail ++ BitVec.ofBool s.c2sValid ++ BitVec.ofBool s.s2cValid
    ++ BitVec.ofBool s.rootValid ++ BitVec.ofBool s.treeBuilt ++ BitVec.ofBool s.err ++ BitVec.ofBool s.done
    ++ BitVec.ofBool s.busy : BitVec 64)

/-- LK_CTRL (R28), from bit 63 down: reserved, SYM, reserved, HIT, reserved, LEN. -/
def State.lkCtrlWord (s : State) : Word :=
  (0#32 ++ s.lkSym ++ 0#7 ++ BitVec.ofBool s.lkHit ++ 0#7 ++ s.lkLen : BitVec 64)

end Sys2Proof.Machine
end

