-- ==== Sys2Proof/Machine/Operands.lean ====
section
/-! DEFINITION. How a command's operands are assembled (30_encoding.md R92): the symbol and byte operands, the bit index
with the bit-extraction primitive, and the code LOOKUP_C2S takes from registers. -/

namespace Sys2Proof.Machine

/-- The 8-bit operand SYM of a command (R92). A number above 255 has no encoding (log 14). -/
def symbolOperand (sym : Nat) : Symbol := BitVec.ofNat 8 sym

/-- `GetBit(b, i)` (43_unpack.md R160): index 1 is the most significant bit; `none` is the raise of ERR_ARG. -/
def getBit (b : Byte) (i : Nat) : Option (BitVec 1) :=
  if 1 ≤ i ∧ i ≤ 8 then some (BitVec.ofNat 1 ((b.toNat >>> (8 - i)) &&& 1)) else none

/-- The bits of a payload byte in the order UNPACK tries them, GetBit(b, 1) first (43_unpack.md R163). -/
def bitsMsbFirst (b : Byte) : BitString := (List.range' 1 8).map fun i => getBit b i == some 1

/-- The code operand of LOOKUP_C2S (41_tree.md R136): the bit string of length L = LK_CTRL.LEN with value
`CODEV mod 2^L`. -/
def State.codeOperand (s : State) : BitString := bitsOf s.lkLen.toNat s.codev.toNat

end Sys2Proof.Machine
end

