-- ==== Sys2Proof/Machine/Container.lean ====
section
/-! DEFINITION. The container header writer and reader: HDR_WRITE and HDR_READ (44_container.md). -/

namespace Sys2Proof.Machine

/-- The header length of a table with n entries: 16 + 9·n (R182). -/
def headerLength (n : Nat) : Nat := 16 + 9 * n

/-! ## HDR_WRITE (R183) -/

/-- The bytes of one entry (R181): the symbol, then its frequency. -/
def entryBytes (s : State) (b : Symbol) : List Byte := b :: outBytes64 (s.freqOf b)

/-- The header bytes of the current table (R181, R183). -/
def headerBytes (s : State) : List Byte :=
  outBytes64 (BitVec.ofNat 64 (popcount s.present)) ++ outBytes64 s.symCount ++ s.keys.flatMap (entryBytes s)

/-- The body of R183. -/
def hdrWriteBody (s : State) : State :=
  { s.outWrite (headerBytes s) with rptHdr := BitVec.ofNat 64 (headerLength (popcount s.present)) }

/-- HDR_WRITE (R183). -/
def execHdrWrite (s : State) : Host.Outcome State Fault Refusal := (Body.done (hdrWriteBody s)).finish

/-! ## HDR_READ (R184) -/

/-- `repeat n times` of R184 on the unread bytes: the state with the entries loaded, the bytes left unread, and
whether every entry was good (false: truncated or duplicate, R185). -/
def readEntries : Nat → List Byte → State → State × List Byte × Bool
  | 0, unread, s => (s, unread, true)
  | _ + 1, [], s => (s, [], false)
  | n + 1, sym :: unread, s =>
    match inRead64 unread with
    | none => (s, [], false)
    | some (f, rest) => if s.isKey sym then (s, rest, false) else readEntries n rest (s.setEntry sym f)

/-- The body of R184 after its precondition. -/
def hdrReadBody (s₀ : State) : Body :=
  let s := s₀.clearTable
  match inRead64 s.unread with
  | none => .raised .header (s.consume s.unread.length)
  | some (n, unread₁) =>
    if n.toNat > 256 then .raised .header (s.consume 8)
    else
      match inRead64 unread₁ with
      | none => .raised .header (s.consume s.unread.length)
      | some (count, unread₂) =>
        match readEntries n.toNat unread₂ s with
        | (t, rest, true) =>
          .done { t.consume (s.unread.length - rest.length) with
            symCount := count
            rptHdr := BitVec.ofNat 64 (headerLength n.toNat) }
        | (t, rest, false) => .raised .header (t.consume (s.unread.length - rest.length))

/-- HDR_READ (R184). -/
def execHdrRead (s : State) : Host.Outcome State Fault Refusal := (requireInput hdrReadBody s).finish

end Sys2Proof.Machine
end

