-- ==== Sys2Proof/Machine/FreqTable.lean ====
section
/-! DEFINITION. The frequency table builder: FT_CLEAR, FT_SCAN and IN_REWIND (40_freq_table.md). -/

namespace Sys2Proof.Machine

/-! ## FT_CLEAR (R110) -/

/-- The body of R110: FREQ, PRESENT and SYM_COUNT to 0. -/
def ftClearBody (s : State) : State := { s.clearTable with symCount := 0 }

/-- FT_CLEAR (R110). -/
def execFtClear (s : State) : Host.Outcome State Fault Refusal := (Body.done (ftClearBody s)).finish

/-! ## FT_SCAN (R111) -/

/-- The loop of R111 over the unread bytes; `cnt` bytes are already counted. `none` is REFUSED: a count would pass
2^64 − 1. -/
def scanLoop : List Byte → Nat → State → Option (Nat × State)
  | [], cnt, s => some (cnt, s)
  | b :: bs, cnt, s =>
    if (s.freqOf b).toNat = 2 ^ 64 - 1 ∨ s.symCount.toNat + cnt = 2 ^ 64 - 1 then none
    else scanLoop bs (cnt + 1) (s.setEntry b (s.freqOf b + 1))

/-- The body of R111. -/
def ftScanBody (s : State) : Body :=
  match scanLoop s.unread 0 s with
  | none => .refused .countOverflow
  | some (cnt, t) =>
    .done { t.consume cnt with
      symCount := t.symCount + BitVec.ofNat 64 cnt
      rptOrig := BitVec.ofNat 64 cnt }

/-- FT_SCAN (R111). -/
def execFtScan (s : State) : Host.Outcome State Fault Refusal := (requireInput ftScanBody s).finish

/-! ## IN_REWIND (R112) -/

/-- IN_REWIND (R112). -/
def execInRewind (s : State) : Host.Outcome State Fault Refusal :=
  (requireInput (fun s => .done s.rewind) s).finish

end Sys2Proof.Machine
end

