-- ==== Sys2Proof/Machine/Tree.lean ====
section
/-! DEFINITION. The tree builder (a priority merge), the path codes, the two code tables and the lookup commands
(41_tree.md). -/

namespace Sys2Proof.Machine

/-! ## The priority structure (R122) -/

/-- An element of Q: a node index with its node's frequency, the pair R122 orders by. -/
structure QEntry where
  freq : NodeFreq
  idx : Nat
  deriving DecidableEq, Repr

/-- The priority order (R122): "lower frequency first, and for equal frequency the lower node index first". -/
def QEntry.before (x y : QEntry) : Bool :=
  decide (x.freq.toNat < y.freq.toNat ∨ (x.freq.toNat = y.freq.toNat ∧ x.idx < y.idx))

/-- `PopMin(Q)` (R122): the element with the least pair, and the others. -/
def popMin : List QEntry → Option (QEntry × List QEntry)
  | [] => none
  | x :: q =>
    match popMin q with
    | none => some (x, [])
    | some (y, rest) => if y.before x then some (y, x :: rest) else some (x, y :: rest)

/-! ## TREE_BUILD (R120) -/

/-- The leaves: one per key, in natural key order, frequency zext_72(FREQ[s]) (R121). -/
def State.leafNodes (s : State) : List Node :=
  s.keys.map fun b => .leaf b ((s.freqOf b).setWidth 72)

/-- NODE[k].freq. -/
def Node.freq : Node → NodeFreq
  | .leaf _ f => f
  | .internal f _ _ => f

/-- Q <- { 0, 1, ..., n−1 }, each with its frequency. -/
def initialQueue (leaves : List Node) : List QEntry :=
  leaves.mapIdx fun k node => ⟨node.freq, k⟩

/-- The loop `while |Q| >= 2` of R120, for at most `fuel` merges. The first node popped is the left child (R123), and
the sum is exact (R126). -/
def mergeLoop : Nat → List QEntry → List Node → List Node
  | 0, _, arena => arena
  | fuel + 1, q, arena =>
    match popMin q with
    | none => arena
    | some (i, q₁) =>
      match popMin q₁ with
      | none => arena
      | some (j, q₂) =>
        let sum := i.freq + j.freq
        mergeLoop fuel (⟨sum, arena.length⟩ :: q₂) (arena ++ [.internal sum i.idx j.idx])

/-- The arena built from the leaves; every merge lowers |Q| by one, so n merges are enough (R124). -/
def buildArena (leaves : List Node) : List Node :=
  mergeLoop leaves.length (initialQueue leaves) leaves

/-- ROOT of a built arena: the last node created, NONE where the table is empty (R124, R125). -/
def rootOf (arena : List Node) : Option Nat :=
  if arena.length = 0 then none else some (arena.length - 1)

/-- The body of R120. -/
def treeBuildBody (s : State) : State :=
  let arena := buildArena s.leafNodes
  { s with
    arena := arena
    root := rootOf arena
    rootValid := (rootOf arena).isSome
    treeBuilt := true
    s2cValid := false
    c2sValid := false }

/-- TREE_BUILD (R120). -/
def execTreeBuild (s : State) : Host.Outcome State Fault Refusal := (Body.done (treeBuildBody s)).finish

/-! ## Code assignment (R130 to R134) -/

/-- `Walk(k, p)` (R130): the leaves below node k with their paths, left = '0', right = '1'. `fuel` bounds the depth
(a child's index is below its parent's, 10_state.md R46); an index outside the arena has no node (log 15). -/
def walk (arena : List Node) : Nat → Nat → BitString → List (Symbol × BitString)
  | 0, _, _ => []
  | fuel + 1, k, p =>
    match arena[k]? with
    | none => []
    | some (.leaf sym _) => [(sym, p)]
    | some (.internal _ left right) =>
      walk arena fuel left (p ++ [false]) ++ walk arena fuel right (p ++ [true])

/-- `Codes()` (R130) as pairs: a root that is a leaf gets "0" (R131), no root gives the empty map (R125). -/
def codes (arena : List Node) : Option Nat → List (Symbol × BitString)
  | none => []
  | some r =>
    match arena[r]? with
    | some (.leaf sym _) => [(sym, [false])]
    | _ => walk arena (r + 1) r []

/-- `Codes()` of the state's tree. -/
def State.codes (s : State) : List (Symbol × BitString) := Machine.codes s.arena s.root

/-- The symbol→code table of a code map: entry s is valid exactly when s has a code (R134, 10_state.md R50). -/
def s2cTable (m : List (Symbol × BitString)) : Vector (Option BitString) 256 :=
  Vector.ofFn fun k => m.lookup (BitVec.ofFin k)

/-- The code→symbol table of a code map, its inverse (R132). -/
def c2sTable (m : List (Symbol × BitString)) : List (BitString × Symbol) := m.map Prod.swap

/-- `EnsureS2C()` (R134). -/
def State.ensureS2c (s : State) : State :=
  if s.s2cValid then s else { s with s2c := s2cTable s.codes, s2cValid := true }

/-- `EnsureC2S()` (R134). -/
def State.ensureC2s (s : State) : State :=
  if s.c2sValid then s else { s with c2s := c2sTable s.codes, c2sValid := true }

/-- S2C[b]: its code where it is valid (10_state.md R50). -/
def State.codeOf (s : State) (b : Symbol) : Option BitString := s.s2c[b.toNat]'b.isLt

/-- C2S(c) (10_state.md R51). -/
def State.symbolFor (s : State) (c : BitString) : Option Symbol := s.c2s.lookup c

/-! ## Lookups (R135, R136) -/

/-- The body of R135 after its precondition. -/
def lookupS2cBody (sym : Symbol) (s₀ : State) : State :=
  let s := s₀.ensureS2c
  match s.codeOf sym with
  | some c =>
    { s with
      lkSym := sym
      lkHit := true
      lkLen := BitVec.ofNat 9 c.length
      codev := BitVec.ofNat 256 (bitVal c) }
  | none => { s with lkSym := sym, lkHit := false, lkLen := 0, codev := 0 }

/-- LOOKUP_S2C (R135). -/
def execLookupS2c (sym : Nat) (s : State) : Host.Outcome State Fault Refusal :=
  (requireTree (fun s => .done (lookupS2cBody (symbolOperand sym) s)) s).finish

/-- The body of R136 after its precondition. -/
def lookupC2sBody (s₀ : State) : State :=
  let s := s₀.ensureC2s
  match s.symbolFor s.codeOperand with
  | some sym => { s with lkHit := true, lkSym := sym }
  | none => { s with lkHit := false, lkSym := 0 }

/-- LOOKUP_C2S (R136). -/
def execLookupC2s (s : State) : Host.Outcome State Fault Refusal :=
  (requireTree (fun s => .done (lookupC2sBody s)) s).finish

end Sys2Proof.Machine
end

