-- ==== Sys2Proof/Machine/Pack.lean ====
section
/-! DEFINITION. The bit packer: PACK (42_pack.md). -/

namespace Sys2Proof.Machine

/-- The packer inside one PACK (R150): the partial byte, how many bits it holds, and the bytes written. -/
structure Packer where
  acc : Byte
  nacc : Nat
  bytes : List Byte
  deriving DecidableEq, Repr

/-- An empty packer (10_state.md R55). -/
def Packer.start : Packer := ⟨0, 0, []⟩

/-- One bit of a code (R150, R151): the first bit of a group ends in bit 7 of its byte. -/
def packBit (p : Packer) (bit : Bool) : Packer :=
  let acc : Byte := (p.acc <<< 1) ||| (if bit then 1 else 0)
  if p.nacc + 1 = 8 then ⟨0, 0, p.bytes ++ [acc]⟩ else ⟨acc, p.nacc + 1, p.bytes⟩

/-- The bytes written once the input is exhausted: the partial byte, if any, is zero-padded on the right (R152). -/
def packFlush (p : Packer) : List Byte :=
  if p.nacc > 0 then p.bytes ++ [p.acc <<< (8 - p.nacc)] else p.bytes

/-- The loop of R150 over the unread bytes, with `count` bytes already packed: the packer, the bytes packed, and
whether the input was exhausted (false: a byte has no code, R153). -/
def packLoop (codeOf : Symbol → Option BitString) : List Byte → Packer → Nat → Packer × Nat × Bool
  | [], p, count => (p, count, true)
  | b :: bs, p, count =>
    match codeOf b with
    | none => (p, count, false)
    | some c => packLoop codeOf bs (c.foldl packBit p) (count + 1)

/-- The body of R150 after its preconditions. -/
def packBody (s₀ : State) : Body :=
  let s := s₀.ensureS2c
  match packLoop s.codeOf s.unread Packer.start 0 with
  | (p, count, true) =>
    .done { (s.consume count).outWrite (packFlush p) with
      rptOrig := BitVec.ofNat 64 count
      rptPacked := BitVec.ofNat 64 (packFlush p).length }
  | (p, count, false) =>
    .raised .noCode { (s.consume (count + 1)).outWrite p.bytes with
      rptOrig := BitVec.ofNat 64 count
      rptPacked := BitVec.ofNat 64 p.bytes.length }

/-- PACK (R150): ERR_NOTREE is checked before ERR_INPUT. -/
def execPack (s : State) : Host.Outcome State Fault Refusal :=
  (requireTree (requireInput packBody) s).finish

end Sys2Proof.Machine
end

