-- ==== Sys2Proof/Machine/Unpack.lean ====
section
/-! DEFINITION. The bit unpacker: GETBIT and UNPACK (43_unpack.md). -/

namespace Sys2Proof.Machine

/-! ## GETBIT (R161) -/

/-- The body of R161: ERR_ARG leaves GB_RESULT unchanged. -/
def getbitBody (b : Byte) (idx : Nat) (s : State) : Body :=
  match getBit b idx with
  | some bit => .done { s with gbResult := bit }
  | none => .raised .arg s

/-- GETBIT (R161). -/
def execGetbit (b idx : Nat) (s : State) : Host.Outcome State Fault Refusal :=
  (getbitBody (symbolOperand b) idx s).finish

/-! ## UNPACK (R162) -/

/-- The unpacker inside one UNPACK (R162): the accumulator, the symbols emitted, and whether the expected count has
been reached. -/
structure Unpacker where
  acc : BitString
  emitted : List Symbol
  stopped : Bool
  deriving DecidableEq, Repr

/-- An unpacker that has read nothing (10_state.md R55). -/
def Unpacker.start : Unpacker := ⟨[], [], false⟩

/-- One bit (R163): append it to the accumulator; on an exact match emit, reset the accumulator, and stop as soon as
`n` symbols are out (R164). Bits after the stop are not interpreted. -/
def unpackBit (symbolFor : BitString → Option Symbol) (n : Nat) (u : Unpacker) (bit : Bool) : Unpacker :=
  if u.stopped then u
  else
    match symbolFor (u.acc ++ [bit]) with
    | none => { u with acc := u.acc ++ [bit] }
    | some sym => ⟨[], u.emitted ++ [sym], decide ((u.emitted ++ [sym]).length = n)⟩

/-- The loop of R162 over the unread bytes, with `consumed` bytes already read: the unpacker and the bytes read.
It ends at the stop, or at EOS with `stopped = false` (R165). -/
def unpackLoop (symbolFor : BitString → Option Symbol) (n : Nat) : List Byte → Unpacker → Nat → Unpacker × Nat
  | [], u, consumed => (u, consumed)
  | b :: bs, u, consumed =>
    let u' := (bitsMsbFirst b).foldl (unpackBit symbolFor n) u
    if u'.stopped then (u', consumed + 1) else unpackLoop symbolFor n bs u' (consumed + 1)

/-- The body of R162 after its preconditions. -/
def unpackBody (s₀ : State) : Body :=
  let s := s₀.ensureC2s
  if s.symCount = 0 then .done { s with rptOrig := 0, rptPacked := 0 }
  else
    let (u, consumed) := unpackLoop s.symbolFor s.symCount.toNat s.unread Unpacker.start 0
    let t : State := { (s.consume consumed).outWrite u.emitted with
      rptOrig := BitVec.ofNat 64 u.emitted.length
      rptPacked := BitVec.ofNat 64 consumed }
    if u.stopped then .done t else .raised .corrupt t

/-- UNPACK (R162): ERR_NOTREE is checked before ERR_INPUT. -/
def execUnpack (s : State) : Host.Outcome State Fault Refusal :=
  (requireTree (requireInput unpackBody) s).finish

end Sys2Proof.Machine
end

