-- ==== Sys2Proof/Machine/Orchestration.lean ====
section
/-! DEFINITION. COMPRESS and DECOMPRESS: the component bodies in sequence (45_orchestration.md). -/

namespace Sys2Proof.Machine

/-- The body of R200 after its precondition. -/
def compressBody (s : State) : Body :=
  (ftScanBody (ftClearBody s.invalidate.rewind)).andThen fun scanned =>
    (packBody (hdrWriteBody (treeBuildBody scanned)).rewind).andThen fun packed =>
      .done { packed with rptOrig := packed.symCount }

/-- COMPRESS (R200). -/
def execCompress (s : State) : Host.Outcome State Fault Refusal := (requireInput compressBody s).finish

/-- The body of R202 after its precondition; N = 0 is the empty-input special case of R203. -/
def decompressBody (s : State) : Body :=
  (hdrReadBody s.invalidate.rewind).andThen fun loaded =>
    if loaded.symCount = 0 then .done { loaded with rptOrig := 0, rptPacked := 0 }
    else unpackBody (treeBuildBody loaded)

/-- DECOMPRESS (R202). -/
def execDecompress (s : State) : Host.Outcome State Fault Refusal := (requireInput decompressBody s).finish

end Sys2Proof.Machine
end

