-- ==== Sys2Proof/Machine/Dispatch.lean ====
section
/-! DEFINITION. One arm per command: its meaning. -/

namespace Sys2Proof.Machine

-- The meaning of a pending command, from its acceptance to its completion (20_memory.md R81).
def exec (i : Instr) (s : State) : Host.Outcome State Fault Refusal :=
  match i with
  | .ftClear => Sys2Proof.Machine.execFtClear s
  | .ftScan => Sys2Proof.Machine.execFtScan s
  | .inRewind => Sys2Proof.Machine.execInRewind s
  | .treeBuild => Sys2Proof.Machine.execTreeBuild s
  | .lookupS2c sym => Sys2Proof.Machine.execLookupS2c sym s
  | .lookupC2s => Sys2Proof.Machine.execLookupC2s s
  | .pack => Sys2Proof.Machine.execPack s
  | .getbit b idx => Sys2Proof.Machine.execGetbit b idx s
  | .unpack => Sys2Proof.Machine.execUnpack s
  | .hdrWrite => Sys2Proof.Machine.execHdrWrite s
  | .hdrRead => Sys2Proof.Machine.execHdrRead s
  | .compress => Sys2Proof.Machine.execCompress s
  | .decompress => Sys2Proof.Machine.execDecompress s

end Sys2Proof.Machine
end

