-- ==== Sys2Proof/Machine/Engine.lean ====
section
/-! DEFINITION. The engine's step on a pending command (20_memory.md R81), the placing of a command, and reset
(70_reset_and_hazards.md R250). -/

namespace Sys2Proof.Machine

/-- The engine executes the command CMD holds as one step: an illegal word completes with ERR_ILLEGAL before any
other check (30_encoding.md R95, 60_exceptions.md R227). -/
def runPending (s : State) : Host.Outcome State Fault Refusal :=
  match decode s.cmd with
  | .ok i => exec i s
  | .error _ => .next (s.raise .illegal)

/-- The move comes only after the pending command (log 2). -/
def HostMove.waits : HostMove → Bool
  | .act early _ => !early
  | .poll busyReads => busyReads == 0

/-- The same move, made to wait for the pending command. -/
def HostMove.hold : HostMove → HostMove
  | .act _ a => .act false a
  | .poll _ => .poll 0

/-- The host's next move, if any, waits for the pending command. -/
def holdHost : List HostMove → List HostMove
  | [] => []
  | m :: rest => m.hold :: rest

/-- The word `v` as an accepted CMD write (20_memory.md R73) that the next step executes (log 4). -/
def State.placeCommand (s : State) (v : Word) : State :=
  { s.acceptCommand v with hostQueue := holdHost s.hostQueue }

/-- Every piece of engine state at its reset value (R251). OUT is the host's (R42), and the host's own part of the
state is not the engine's (log 21). -/
def State.resetEngine (s : State) : State :=
  { State.reset with out := s.out, hostQueue := s.hostQueue, hostReplies := s.hostReplies, draws := s.draws }

/-- The bytes the pending command would append to OUT. -/
def pendingOutput (s : State) : List Byte :=
  match runPending s with
  | .next t => t.out.drop s.out.length
  | .fault _ => []
  | .refused _ => []

/-- Reset (R250). While a command is pending it abandons the command, and OUT keeps an unspecified part, from the
first byte on, of what the command would have appended: a free value (log 5). -/
def hostReset (s : State) : State :=
  if s.busy then
    { s.resetEngine with
      out := s.out ++ (pendingOutput s).take (Config.resetPrefix s.draws)
      draws := s.draws + 1 }
  else s.resetEngine

end Sys2Proof.Machine
end

