-- ==== Sys2Proof/Machine/HostPort.lean ====
section
/-! DEFINITION. The host's side: the register map, register reads and writes, Attach, Detach and Drain
(10_state.md R22, 20_memory.md R70 to R76). -/

namespace Sys2Proof.Machine

/-! ## The register map (10_state.md R22) -/

/-- The registers of the map. -/
inductive Reg where
  | cmd
  | status
  | symCount
  | tblCount
  | rptOrig
  | rptPacked
  | rptHdr
  | lkCtrl
  | lkCode (j : Fin 4)
  | gbResult
  | inPos
  | present (j : Fin 4)
  | freq (sym : Symbol)
  deriving DecidableEq, Repr

/-- The offset of a register from BLOCK_BASE. -/
def Reg.offset : Reg → Nat
  | .cmd => 0x000
  | .status => 0x008
  | .symCount => 0x010
  | .tblCount => 0x018
  | .rptOrig => 0x020
  | .rptPacked => 0x028
  | .rptHdr => 0x030
  | .lkCtrl => 0x038
  | .lkCode j => 0x040 + 8 * j.val
  | .gbResult => 0x060
  | .inPos => 0x068
  | .present j => 0x100 + 8 * j.val
  | .freq sym => 0x800 + 8 * sym.toNat

/-- The register whose doubleword number (offset / 8) is `d`; none where it is unmapped (R34). -/
def regOfDoubleword (d : Nat) : Option Reg :=
  match d with
  | 0x00 => some .cmd
  | 0x01 => some .status
  | 0x02 => some .symCount
  | 0x03 => some .tblCount
  | 0x04 => some .rptOrig
  | 0x05 => some .rptPacked
  | 0x06 => some .rptHdr
  | 0x07 => some .lkCtrl
  | 0x08 => some (.lkCode 0)
  | 0x09 => some (.lkCode 1)
  | 0x0A => some (.lkCode 2)
  | 0x0B => some (.lkCode 3)
  | 0x0C => some .gbResult
  | 0x0D => some .inPos
  | 0x20 => some (.present 0)
  | 0x21 => some (.present 1)
  | 0x22 => some (.present 2)
  | 0x23 => some (.present 3)
  | _ => if 0x100 ≤ d ∧ d < 0x200 then some (.freq (BitVec.ofNat 8 (d - 0x100))) else none

/-- The register at an offset; none where the offset is misaligned, unmapped or outside the window (R34, R71). -/
def regAt (off : Nat) : Option Reg := if off % 8 = 0 then regOfDoubleword (off / 8) else none

/-- The register a host access names (R71): none for a refused access (another width than 8 bytes, below BLOCK_BASE,
misaligned, unmapped, above the window). -/
def accessedReg (addr width : Nat) : Option Reg :=
  if width = 8 ∧ Config.blockBase ≤ addr then regAt (addr - Config.blockBase) else none

/-! ## Register values -/

/-- Bits 64j+63:64j of a 256-bit value: one of the four registers that hold it (R29, R31). -/
def wordSlice (w : BitVec 256) (j : Fin 4) : Word := w.extractLsb' (64 * j.val) 64

/-- The same value with bits 64j+63:64j replaced. -/
def setWordSlice (w : BitVec 256) (j : Fin 4) (v : Word) : BitVec 256 :=
  (w &&& ~~~((BitVec.allOnes 64).setWidth 256 <<< (64 * j.val))) ||| (v.setWidth 256 <<< (64 * j.val))

/-- What a read returns (R72). A read changes nothing. -/
def State.readReg (s : State) : Reg → Word
  | .cmd => s.cmd
  | .status => s.statusWord
  | .symCount => s.symCount
  | .tblCount => BitVec.ofNat 64 (popcount s.present)
  | .rptOrig => s.rptOrig
  | .rptPacked => s.rptPacked
  | .rptHdr => s.rptHdr
  | .lkCtrl => s.lkCtrlWord
  | .lkCode j => wordSlice s.codev j
  | .gbResult => s.gbResult.setWidth 64
  | .inPos => s.inPtr
  | .present j => wordSlice s.present j
  | .freq sym => s.freqOf sym

/-- What a write does (R73): CMD accepts a command, RO registers ignore it, LK_CTRL takes only LEN. -/
def State.writeReg (s : State) (v : Word) : Reg → State
  | .cmd => s.acceptCommand v
  | .symCount => { s with symCount := v }
  | .lkCtrl => { s with lkLen := v.extractLsb' 0 9 }
  | .lkCode j => { s with codev := setWordSlice s.codev j v }
  | .present j => { s with present := setWordSlice s.present j v }
  | .freq sym => { s with freq := s.freq.set sym.toNat v sym.isLt }
  | .status | .tblCount | .rptOrig | .rptPacked | .rptHdr | .gbResult | .inPos => s

/-! ## Host actions (R76) -/

/-- The host gets an answer. -/
def State.reply (s : State) (r : HostReply) : State := { s with hostReplies := s.hostReplies ++ [r] }

/-- The PRESENT register that holds the bit of a symbol (R31). -/
def presentReg (sym : Symbol) : Reg := .present ⟨sym.toNat / 64, by have := sym.isLt; omega⟩

/-- SETKEY (30_encoding.md R98): read the PRESENT register, write it back with the symbol's bit set. -/
def hostSetKey (s : State) (sym : Symbol) : State :=
  let p := s.readReg (presentReg sym)
  (s.reply (.value p)).writeReg (p ||| (1#64 <<< (sym.toNat % 64))) (presentReg sym)

/-- A host action while STATUS.BUSY = 0 (R76). -/
def hostActIdle (a : HostAction) (s : State) : Host.Outcome State Fault Refusal :=
  match a with
  | .read addr width =>
    match accessedReg addr width with
    | some r => .next (s.reply (.value (s.readReg r)))
    | none => .refused .badAccess
  | .write addr width v =>
    match accessedReg addr width with
    | some r => .next (s.writeReg v r)
    | none => .refused .badAccess
  | .attach bytes =>
    if bytes.length ≤ Config.maxStream then .next { s with inData := bytes, inPtr := 0, inAvail := true }
    else .refused .attachTooLong
  | .detach => .next { s with inAvail := false, inData := [], inPtr := 0 }
  | .drain => .next { s.reply (.bytes s.out) with out := [] }
  | .reset => .next (hostReset s)
  | .setKey sym => .next (hostSetKey s sym)

/-- A host action while STATUS.BUSY = 1: "the host may only read STATUS" (R75), and reset is "admitted at any time,
including while STATUS.BUSY = 1" (70_reset_and_hazards.md R250; log 1). -/
def hostActBusy (a : HostAction) (s : State) : Host.Outcome State Fault Refusal :=
  match a with
  | .read addr width =>
    if accessedReg addr width = some .status then .next (s.reply (.value s.statusWord)) else .refused .busyAccess
  | .reset => .next (hostReset s)
  | .write _ _ _ => .refused .busyAccess
  | .attach _ => .refused .busyAccess
  | .detach => .refused .busyAccess
  | .drain => .refused .busyAccess
  | .setKey _ => .refused .busyAccess

/-- A host action. -/
def hostAct (a : HostAction) (s : State) : Host.Outcome State Fault Refusal :=
  if s.busy then hostActBusy a s else hostActIdle a s

/-- One read of a POLL (30_encoding.md R98): `RD 0x008`, and the POLL goes on where bit 0 (BUSY) of the value read
is 1. -/
def pollRead (busyReads : Nat) (s : State) : Host.Outcome State Fault Refusal :=
  let value := s.readReg .status
  let t := s.reply (.value value)
  if value.getLsbD 0 then .next { t with hostQueue := .poll (busyReads - 1) :: t.hostQueue } else .next t

/-- A move of the host, which is no longer in the queue of `s`. -/
def hostMove (m : HostMove) (s : State) : Host.Outcome State Fault Refusal :=
  match m with
  | .act _ a => hostAct a s
  | .poll busyReads => pollRead busyReads s

/-- The machine's next move (log 2): the engine runs a pending command where the host's next move waits for it; else
the host makes its next move; with nothing to do the machine idles, and "all state survives idleness"
(60_exceptions.md R234; log 3). -/
def nextMove (s : State) : Host.Outcome State Fault Refusal :=
  match s.hostQueue with
  | [] => if s.busy then runPending s else .next s
  | m :: rest => if s.busy && m.waits then runPending s else hostMove m { s with hostQueue := rest }

end Sys2Proof.Machine
end

