-- ==== Sys2Proof/Machine/Step.lean ====
section
/-! DEFINITION. One step of the machine, and a state whose next step runs a given command word. -/

namespace Sys2Proof.Machine

/-- One step: a move of the engine or of the host. -/
def step (s : State) : Host.Outcome State Fault Refusal := nextMove s

/-- `s` with the command word `w` accepted as a CMD write, so that the next step executes it (log 4). -/
def State.withFetchWord (s : State) (nbits w : Nat) : State :=
  s.placeCommand (BitVec.ofNat 64 (tableValue nbits w))

end Sys2Proof.Machine
end

