-- ==== Sys2Proof/Machine/HostProgram.lean ====
section
/-! DEFINITION. Host programs: the lines of 30_encoding.md R97 and the pseudo-instructions of R98 with their expansions
into host actions. -/

namespace Sys2Proof.Machine

/-- A line of a host program (R97, R98). -/
inductive HostLine where
  /-- A command line: `WR 0x000, enc(M ops)` then POLL. -/
  | command (i : Instr)
  /-- `WR off, v`. -/
  | wr (off : Nat) (v : Word)
  /-- `RD off`. -/
  | rd (off : Nat)
  /-- `POLL`. -/
  | poll
  /-- `ATTACH bytes`. -/
  | attach (bytes : List Byte)
  /-- `DETACH`. -/
  | detach
  /-- `DRAIN`. -/
  | drain
  /-- `WRFREQ s, v`. -/
  | wrFreq (sym : Symbol) (v : Word)
  /-- `SETKEY s`. -/
  | setKey (sym : Symbol)
  deriving DecidableEq, Repr

/-- When the host takes a line, which no rule fixes (70_reset_and_hazards.md R261; log 2): whether its first access may
come while an earlier command is pending, and how many reads of its POLL may. -/
structure Timing where
  early : Bool
  busyReads : Nat
  deriving DecidableEq, Repr

/-- `MemRead(BLOCK_BASE + off, 8)`. -/
def readAt (off : Nat) : HostAction := .read (Config.blockBase + off) 8

/-- `MemWrite(BLOCK_BASE + off, 8, v)`. -/
def writeAt (off : Nat) (v : Word) : HostAction := .write (Config.blockBase + off) 8 v

/-- The expansion of a line (R98). Only POLL waits for a command: an access that comes early is made, or refused
(20_memory.md R75), with the command pending. -/
def expand (t : Timing) : HostLine → List HostMove
  | .command i => [.act t.early (writeAt Reg.cmd.offset (encode i)), .poll t.busyReads]
  | .wr off v => [.act t.early (writeAt off v)]
  | .rd off => [.act t.early (readAt off)]
  | .poll => [.poll t.busyReads]
  | .attach bytes => [.act t.early (.attach bytes)]
  | .detach => [.act t.early .detach]
  | .drain => [.act t.early .drain]
  | .wrFreq sym v => [.act t.early (writeAt (Reg.freq sym).offset v)]
  | .setKey sym => [.act t.early (.setKey sym)]

/-- A host program, each line with its own timing, as the host's queue. -/
def hostMoves (lines : List (Timing × HostLine)) : List HostMove := lines.flatMap fun l => expand l.1 l.2

end Sys2Proof.Machine
end

