-- ==== Sys2Proof/Machine/Assembler.lean ====
section
/-! DEFINITION. The assembler: the text of one line of a host program to the line it stands for (30_encoding.md R97,
R98). Text is a list of characters. -/

namespace Sys2Proof.Machine

/-! ## Characters -/

/-- A character of the text that separates: space or tab (log 23). -/
def isBlank (c : Char) : Bool := c = ' ' || c = '\t'

/-- A character's byte, its ASCII code. PRESUMED (log 18): the spec supplies it from general knowledge. A character
outside one byte has none. -/
def asciiByte (c : Char) : Option Byte := if c.toNat < 128 then some (BitVec.ofNat 8 c.toNat) else none

/-- The value of a hexadecimal digit, either case (log 23). -/
def hexDigit (c : Char) : Option Nat :=
  if '0' ≤ c ∧ c ≤ '9' then some (c.toNat - '0'.toNat)
  else if 'a' ≤ c ∧ c ≤ 'f' then some (c.toNat - 'a'.toNat + 10)
  else if 'A' ≤ c ∧ c ≤ 'F' then some (c.toNat - 'A'.toNat + 10)
  else none

/-- The value of a decimal digit. -/
def decDigit (c : Char) : Option Nat := if '0' ≤ c ∧ c ≤ '9' then some (c.toNat - '0'.toNat) else none

/-- Digits to a number in a base; none where one is no digit. -/
def digitsValue (base : Nat) (digit : Char → Option Nat) : List Char → Nat → Option Nat
  | [], acc => some acc
  | c :: cs, acc =>
    match digit c with
    | some d => digitsValue base digit cs (acc * base + d)
    | none => none

/-- A number: "in decimal, as `0x` hexadecimal, or as a character literal" (R97). -/
def parseNumber : List Char → Option Nat
  | [] => none
  | ['\'', c, '\''] => (asciiByte c).map (·.toNat)
  | '0' :: 'x' :: c :: cs => digitsValue 16 hexDigit (c :: cs) 0
  | c :: cs => digitsValue 10 decDigit (c :: cs) 0

/-! ## Byte sequences -/

/-- The bytes of the characters up to the closing quote, which must end the text; no character is escaped (log 23). -/
def quotedBytes : List Char → Option (List Byte)
  | [] => none
  | ['"'] => some []
  | '"' :: _ :: _ => none
  | c :: cs =>
    match asciiByte c, quotedBytes cs with
    | some b, some bs => some (b :: bs)
    | _, _ => none

/-- The bytes written as pairs of hexadecimal digits up to the closing quote. R97 shows only `x"0a bf c0"`. DESIGN CHOICE
(log 23): blanks may stand between two pairs and need not, and a byte written with one digit is an assembly error. -/
def quotedHexBytes : List Char → Option (List Byte)
  | [] => none
  | ['"'] => some []
  | [_] => none
  | c :: d :: cs =>
    if isBlank c then quotedHexBytes (d :: cs)
    else
      match hexDigit c, hexDigit d, quotedHexBytes cs with
      | some h, some l, some bs => some (BitVec.ofNat 8 (16 * h + l) :: bs)
      | _, _, _ => none

/-- A byte sequence: `"..."` or `x"0a bf c0"` (R97). -/
def parseBytes : List Char → Option (List Byte)
  | '"' :: cs => quotedBytes cs
  | 'x' :: '"' :: cs => quotedHexBytes cs
  | _ => none

/-! ## Lines -/

/-- The text before the comment: "`;` starts a comment", but not inside a string or a character literal. -/
def stripComment : Bool → List Char → List Char
  | _, [] => []
  | inString, '\'' :: c :: '\'' :: cs =>
    if inString then '\'' :: stripComment inString (c :: '\'' :: cs) else '\'' :: c :: '\'' :: stripComment false cs
  | inString, c :: cs =>
    if c = '"' then c :: stripComment (!inString) cs
    else if c = ';' && !inString then []
    else c :: stripComment inString cs

/-- The text without blanks at either end. -/
def trimBlanks (cs : List Char) : List Char := ((cs.dropWhile isBlank).reverse.dropWhile isBlank).reverse

/-- The two operands of a line, separated by the first comma outside a character literal. -/
def splitComma : List Char → Option (List Char × List Char)
  | [] => none
  | ',' :: cs => some ([], cs)
  | '\'' :: c :: '\'' :: cs => (splitComma cs).map fun p => ('\'' :: c :: '\'' :: p.1, p.2)
  | c :: cs => (splitComma cs).map fun p => (c :: p.1, p.2)

/-- A line without operands. -/
def line0 (operands : List Char) (l : HostLine) : Option HostLine := if operands = [] then some l else none

/-- A line with one number. -/
def line1 (operands : List Char) (l : Nat → HostLine) : Option HostLine := (parseNumber operands).map l

/-- A line with two numbers, "separated by a comma". -/
def line2 (operands : List Char) (l : Nat → Nat → HostLine) : Option HostLine :=
  match splitComma operands with
  | none => none
  | some (a, b) =>
    match parseNumber (trimBlanks a), parseNumber (trimBlanks b) with
    | some m, some n => some (l m n)
    | _, _ => none

/-- A command line is assembled only if its operands have an encoding: "an operand out of those ranges is an assembly
error" (R97). -/
def wellFormedLine : HostLine → Option HostLine
  | .command i => if i.wellFormed then some (.command i) else none
  | l => some l

/-- A value operand fits its width: 64 bits for a register, 8 for a symbol (log 23). -/
def fits (width n : Nat) : Bool := decide (n < 2 ^ width)

/-- The mnemonics that are spelled as their characters. -/
def mnemonicOf : HostLine → List Char
  | .command .ftClear => ['F', 'T', '_', 'C', 'L', 'E', 'A', 'R']
  | .command .ftScan => ['F', 'T', '_', 'S', 'C', 'A', 'N']
  | .command .inRewind => ['I', 'N', '_', 'R', 'E', 'W', 'I', 'N', 'D']
  | .command .treeBuild => ['T', 'R', 'E', 'E', '_', 'B', 'U', 'I', 'L', 'D']
  | .command (.lookupS2c _) => ['L', 'O', 'O', 'K', 'U', 'P', '_', 'S', '2', 'C']
  | .command .lookupC2s => ['L', 'O', 'O', 'K', 'U', 'P', '_', 'C', '2', 'S']
  | .command .pack => ['P', 'A', 'C', 'K']
  | .command (.getbit _ _) => ['G', 'E', 'T', 'B', 'I', 'T']
  | .command .unpack => ['U', 'N', 'P', 'A', 'C', 'K']
  | .command .hdrWrite => ['H', 'D', 'R', '_', 'W', 'R', 'I', 'T', 'E']
  | .command .hdrRead => ['H', 'D', 'R', '_', 'R', 'E', 'A', 'D']
  | .command .compress => ['C', 'O', 'M', 'P', 'R', 'E', 'S', 'S']
  | .command .decompress => ['D', 'E', 'C', 'O', 'M', 'P', 'R', 'E', 'S', 'S']
  | .wr _ _ => ['W', 'R']
  | .rd _ => ['R', 'D']
  | .poll => ['P', 'O', 'L', 'L']
  | .attach _ => ['A', 'T', 'T', 'A', 'C', 'H']
  | .detach => ['D', 'E', 'T', 'A', 'C', 'H']
  | .drain => ['D', 'R', 'A', 'I', 'N']
  | .wrFreq _ _ => ['W', 'R', 'F', 'R', 'E', 'Q']
  | .setKey _ => ['S', 'E', 'T', 'K', 'E', 'Y']

/-- The lines without operands. -/
def plainLines : List HostLine :=
  [.command .ftClear, .command .ftScan, .command .inRewind, .command .treeBuild, .command .lookupC2s, .command .pack,
    .command .unpack, .command .hdrWrite, .command .hdrRead, .command .compress, .command .decompress, .poll, .detach,
    .drain]

/-- A line from its mnemonic and its operand text. -/
def lineOf (mnemonic operands : List Char) : Option HostLine :=
  match plainLines.find? (fun l => mnemonicOf l == mnemonic) with
  | some l => line0 operands l
  | none =>
    if mnemonic = mnemonicOf (.command (.lookupS2c 0)) then line1 operands fun n => .command (.lookupS2c n)
    else if mnemonic = mnemonicOf (.command (.getbit 0 0)) then line2 operands fun b i => .command (.getbit b i)
    else if mnemonic = mnemonicOf (.wr 0 0) then
      match splitComma operands with
      | none => none
      | some (a, b) =>
        match parseNumber (trimBlanks a), parseNumber (trimBlanks b) with
        | some off, some v => if fits 64 v then some (.wr off (BitVec.ofNat 64 v)) else none
        | _, _ => none
    else if mnemonic = mnemonicOf (.rd 0) then line1 operands .rd
    else if mnemonic = mnemonicOf (.attach []) then (parseBytes operands).map .attach
    else if mnemonic = mnemonicOf (.wrFreq 0 0) then
      match splitComma operands with
      | none => none
      | some (a, b) =>
        match parseNumber (trimBlanks a), parseNumber (trimBlanks b) with
        | some sym, some v =>
          if fits 8 sym && fits 64 v then some (.wrFreq (BitVec.ofNat 8 sym) (BitVec.ofNat 64 v)) else none
        | _, _ => none
    else if mnemonic = mnemonicOf (.setKey 0) then
      match parseNumber operands with
      | some sym => if fits 8 sym then some (.setKey (BitVec.ofNat 8 sym)) else none
      | none => none
    else none

/-- One line of a host program: a line, nothing but a comment, or an assembly error. -/
inductive Assembled where
  | line (l : HostLine)
  | empty
  | error
  deriving DecidableEq, Repr

/-- The text of one line, assembled (R97). -/
def assembleLine (text : List Char) : Assembled :=
  match trimBlanks (stripComment false text) with
  | [] => .empty
  | c :: cs =>
    let mnemonic := (c :: cs).takeWhile (!isBlank ·)
    let operands := trimBlanks ((c :: cs).dropWhile (!isBlank ·))
    match (lineOf mnemonic operands).bind wellFormedLine with
    | some l => .line l
    | none => .error

end Sys2Proof.Machine
end

