-- ==== Sys2Proof/Safety.lean ====
section
/-! DEFINITION. What every reachable state satisfies (the invariant), and what counts as a safe run: one that meets no
refusal (60_exceptions.md R229). -/

namespace Sys2Proof.Machine

/-! ## The tree (10_state.md R46) -/

/-- A record of kind LEAF. -/
def Node.isLeaf : Node → Bool
  | .leaf _ _ => true
  | .internal _ _ _ => false

/-- The symbol of a leaf. -/
def Node.symbol? : Node → Option Symbol
  | .leaf sym _ => some sym
  | .internal _ _ _ => none

/-- A record has `k` among its children. -/
def Node.hasChild (k : Nat) : Node → Bool
  | .leaf _ _ => false
  | .internal _ left right => left == k || right == k

/-- The number of leaves, n. -/
def leafCount (arena : List Node) : Nat := (arena.filter Node.isLeaf).length

/-- Record k, if internal, has two different children below k and the exact sum of their frequencies (R46, 41_tree.md
R126). -/
def childrenOk (arena : List Node) (k : Nat) : Bool :=
  match arena[k]? with
  | some (.internal f left right) =>
    match arena[left]?, arena[right]? with
    | some x, some y =>
      decide (left < k) && decide (right < k) && left != right && f.toNat == x.freq.toNat + y.freq.toNat
    | _, _ => false
  | _ => true

/-- The arena of a built tree (R46): n leaves in ascending symbol order, then internal nodes, NODE_COUNT = 2n − 1, and
every record but the last is the child of exactly one internal node. The empty arena is the empty tree. -/
abbrev ArenaOk (arena : List Node) : Prop :=
  leafCount arena ≤ 256 ∧
  arena.length = 2 * leafCount arena - 1 ∧
  (arena.take (leafCount arena)).all Node.isLeaf = true ∧
  ((arena.take (leafCount arena)).filterMap Node.symbol?).Pairwise (fun a b => a.toNat < b.toNat) ∧
  (∀ k < arena.length, childrenOk arena k = true) ∧
  (∀ k < arena.length - 1, arena.countP (Node.hasChild k) = 1)

/-! ## The invariant -/

/-- The input stream (10_state.md R40, 20_memory.md R76): 0 ≤ in_ptr ≤ |IN_DATA| ≤ MAX_STREAM, and no data without an
attached input. -/
abbrev StreamsOk (s : State) : Prop :=
  s.inPtr.toNat ≤ s.inData.length ∧ s.inData.length ≤ Config.maxStream ∧ (s.inAvail = false → s.inData = [])

/-- STATUS (10_state.md R24, 60_exceptions.md R221): while BUSY the completion fields are clear; ERRCODE is 0 without an
error and 1 to 7 with one. -/
abbrev StatusOk (s : State) : Prop :=
  (s.busy = true → s.done = false ∧ s.err = false) ∧
  (s.err = false → s.errcode = 0) ∧
  (s.err = true → 1 ≤ s.errcode.toNat ∧ s.errcode.toNat ≤ 7)

/-- The tree (10_state.md R24, R45, R46, R53): no tree means an empty arena and no valid code table; ROOT is the last
record; ROOT_VALID says whether there is one. -/
abbrev TreeOk (s : State) : Prop :=
  (s.treeBuilt = false → s.arena = [] ∧ s.s2cValid = false ∧ s.c2sValid = false) ∧
  s.root = rootOf s.arena ∧
  s.rootValid = s.root.isSome ∧
  ArenaOk s.arena

/-- The code tables (10_state.md R50, R51): a valid one is the current tree's. -/
abbrev CodeTablesOk (s : State) : Prop :=
  (s.s2cValid = true → s.s2c = s2cTable s.codes) ∧ (s.c2sValid = true → s.c2s = c2sTable s.codes)

/-- What holds of every reachable state. -/
abbrev Inv (s : State) : Prop := StreamsOk s ∧ StatusOk s ∧ TreeOk s ∧ CodeTablesOk s

/-! ## Safe runs -/

/-- A run of `k` steps from `s` that meets no refusal (60_exceptions.md R229: "no claim about a run holds through a
refusal"). -/
def SafeRun (k : Nat) (s : State) : Prop := ∃ t, Host.Core.run Sys2Proof.core k s = .next t

end Sys2Proof.Machine
end

