-- ==== Sys2Proof/Certificates/Slice0/Obligations.lean ====
section
/-! DEFINITION. The statements for the provers, and the words of the spec they are said in. Each docstring names the rules
a statement formalises; where a clause is the model's own choice it says so and names the log entry. -/

/-! ## The words the statements use -/

namespace Sys2Proof.Claims

open Sys2Proof.Machine

/-- The bits of packed bytes in stream order: "The first bit of the packed bitstream is bit 7 of the first payload
byte" (20_memory.md R79). -/
def streamBits (bytes : List Byte) : BitString :=
  bytes.flatMap fun b => (List.range 8).map fun k => b.getLsbD (7 - k)

/-- A header integer: byte j holds bits 8j+7:8j (44_container.md R180). -/
def le64 (v : Word) : List Byte := (List.range 8).map fun j => v.extractLsb' (8 * j) 8

/-- The entries of a header (44_container.md R181): one symbol byte, then the 8-byte frequency. -/
def entryListBytes (es : List (Symbol × Word)) : List Byte := es.flatMap fun e => e.1 :: le64 e.2

/-- A whole header (44_container.md R181): entry count, symbol count, entries. -/
def header (es : List (Symbol × Word)) (n : Word) : List Byte :=
  le64 (BitVec.ofNat 64 es.length) ++ le64 n ++ entryListBytes es

/-- The frequency table holds exactly the given entries, and 0 for every other symbol. -/
def TableHolds (s : State) (es : List (Symbol × Word)) : Prop :=
  ∀ b, (s.isKey b = true ↔ b ∈ es.map Prod.fst) ∧ s.freqOf b = (es.lookup b).getD 0

/-- Entries in the natural key order, ascending (10_state.md R35). -/
def Ascending (es : List (Symbol × Word)) : Prop := es.Pairwise fun x y => x.1.toNat < y.1.toNat

/-- `cs` are the codes of the symbols `syms` in the tree of `s`, one for one. -/
def CodesAre (s : State) (syms : List Symbol) (cs : List BitString) : Prop :=
  syms.map (fun b => s.codes.lookup b) = cs.map some

/-- The packed form of a bit string (42_pack.md R151, R152, R154): whole bytes, most significant bit first, padded with
fewer than 8 zero bits. -/
def PackedAs (payload : List Byte) (bits : BitString) : Prop :=
  payload.length = (bits.length + 7) / 8 ∧
  streamBits payload = bits ++ List.replicate (8 * payload.length - bits.length) false

/-- A command that completed without an error (60_exceptions.md R228). -/
def completed (s : State) : State := { s with busy := false, done := true }

/-- A command that completed with the error of that code (60_exceptions.md R226). -/
def failed (code : BitVec 8) (s : State) : State :=
  { s with busy := false, done := true, err := true, errcode := code }

/-- The host's next move, if any, waits for the pending command (log 2). -/
def HostWaits (s : State) : Prop :=
  match s.hostQueue with
  | [] => True
  | .act early _ :: _ => early = false
  | .poll busyReads :: _ => busyReads = 0

/-- The bytes start with a malformed header (44_container.md R185): the entries `es` come before the failing one, and
the failing read ends `read` bytes after the header's start. -/
inductive MalformedHeader : List Byte → List (Symbol × Word) → Nat → Prop
  /-- truncated: within the entry count. -/
  | countTruncated (bytes : List Byte) : bytes.length < 8 → MalformedHeader bytes [] bytes.length
  /-- count: more than 256 entries. -/
  | tooManyEntries (n : Word) (rest : List Byte) : 256 < n.toNat → MalformedHeader (le64 n ++ rest) [] 8
  /-- truncated: within the symbol count. -/
  | symbolCountTruncated (n : Word) (rest : List Byte) :
      n.toNat ≤ 256 → rest.length < 8 → MalformedHeader (le64 n ++ rest) [] (8 + rest.length)
  /-- truncated: within an entry. -/
  | entryTruncated (n m : Word) (es : List (Symbol × Word)) (rest : List Byte) :
      n.toNat ≤ 256 → (es.map Prod.fst).Nodup → es.length < n.toNat → rest.length < 9 →
      MalformedHeader (le64 n ++ le64 m ++ entryListBytes es ++ rest) es (16 + 9 * es.length + rest.length)
  /-- duplicate: an entry's symbol was loaded before. -/
  | duplicate (n m : Word) (es : List (Symbol × Word)) (b : Symbol) (f : Word) (rest : List Byte) :
      n.toNat ≤ 256 → (es.map Prod.fst).Nodup → es.length < n.toNat → b ∈ es.map Prod.fst →
      MalformedHeader (le64 n ++ le64 m ++ entryListBytes es ++ b :: (le64 f ++ rest)) es (16 + 9 * (es.length + 1))

/-- A command word that selects a command, by its bits (30_encoding.md R93, R94). -/
def LegalWord (w : Word) : Prop :=
  w.toNat < 2 ^ 20 ∧
  ((w.toNat ∈ [0x01, 0x02, 0x03, 0x10, 0x12, 0x20, 0x31, 0x40, 0x41, 0x50, 0x51]) ∨
   (w.toNat % 256 = 0x11 ∧ w.toNat < 2 ^ 16) ∨
   w.toNat % 256 = 0x30)

/-- Node i comes before node j in the priority order (41_tree.md R122). -/
def NodeBefore (arena : List Node) (i j : Nat) : Prop :=
  ∃ x y, arena[i]? = some x ∧ arena[j]? = some y ∧
    (x.freq.toNat < y.freq.toNat ∨ (x.freq.toNat = y.freq.toNat ∧ i < j))

/-- Record k is a child of an internal node made before record m. -/
def ChildBefore (arena : List Node) (m k : Nat) : Prop :=
  ∃ m' < m, ∃ f l r, arena[m']? = some (.internal f l r) ∧ (k = l ∨ k = r)

/-- The node a path leads to from record k: '0' to the left child, '1' to the right (41_tree.md R130). -/
def follow (arena : List Node) : Nat → BitString → Option Node
  | k, [] => arena[k]?
  | k, bit :: bits =>
    match arena[k]? with
    | some (.internal _ left right) => follow arena (if bit then right else left) bits
    | _ => none

/-- The tree walker of 43_unpack.md R166: where it stands (`none` is the dead state), what it has emitted, and whether
it has stopped. -/
structure Walker where
  node : Option Nat
  emitted : List Symbol
  stopped : Bool

/-- One bit of the walk (R166): go left on '0' and right on '1'; at a leaf emit and return to the root; leave the tree
for the dead state. The one code of a single-leaf tree is "0" (41_tree.md R131). -/
def walkBit (arena : List Node) (root : Option Nat) (n : Nat) (u : Walker) (bit : Bool) : Walker :=
  if u.stopped then u
  else
    let next : Option Nat :=
      match u.node.bind (arena[·]?) with
      | some (.internal _ left right) => some (if bit then right else left)
      | some (.leaf _ _) => if bit then none else u.node
      | none => none
    match next.bind (arena[·]?) with
    | some (.leaf sym _) => ⟨root, u.emitted ++ [sym], decide ((u.emitted ++ [sym]).length = n)⟩
    | some (.internal _ _ _) => ⟨next, u.emitted, false⟩
    | none => ⟨none, u.emitted, false⟩

end Sys2Proof.Claims

open Sys2Proof Sys2Proof.Machine Sys2Proof.Claims

/-! ## Encoding (30_encoding.md) -/

/-- Decoding the command word of any well-formed instruction gives the instruction back, with every operand at every
value the word can carry (R91, R94, R97). -/
def Obligations.DecodeInvertsEncode : Prop :=
  ∀ i : Instr, i.wellFormed = true → decode (encode i) = .ok i

/-- R94, with the map of R93: which words select a command, and which command each selects: one word for a command
without operands, 256 for LOOKUP_S2C, 4096 for GETBIT. -/
def Obligations.LegalWordsAreExactlyThoseOfTheOpcodeMap : Prop :=
  ∀ (w : Word) (i : Instr), decode w = .ok i ↔
    match i with
    | .ftClear => w = 0x00000001
    | .ftScan => w = 0x00000002
    | .inRewind => w = 0x00000003
    | .treeBuild => w = 0x00000010
    | .lookupS2c sym => sym < 256 ∧ w = BitVec.ofNat 64 (0x11 + sym * 0x100)
    | .lookupC2s => w = 0x00000012
    | .pack => w = 0x00000020
    | .getbit b idx => b < 256 ∧ idx < 16 ∧ w = BitVec.ofNat 64 (0x30 + b * 0x100 + idx * 0x10000)
    | .unpack => w = 0x00000031
    | .hdrWrite => w = 0x00000040
    | .hdrRead => w = 0x00000041
    | .compress => w = 0x00000050
    | .decompress => w = 0x00000051

/-- Words written out from R91, R93 and the examples of R135 and R161 decode to the commands they stand for. -/
def Obligations.SpecWordsDecode : Prop :=
  decode 0x0000000000000001 = .ok .ftClear ∧
  decode 0x0000000000000010 = .ok .treeBuild ∧
  decode 0x0000000000006311 = .ok (.lookupS2c 0x63) ∧
  decode 0x0000000000000020 = .ok .pack ∧
  decode 0x000000000001A530 = .ok (.getbit 0xA5 1) ∧
  decode 0x00000000000FFF30 = .ok (.getbit 0xFF 15) ∧
  decode 0x0000000000000041 = .ok .hdrRead ∧
  decode 0x0000000000000051 = .ok .decompress

/-- R95: every command word that R94 does not select completes with ERR_ILLEGAL and changes no state other than
STATUS. -/
def Obligations.IllegalWordChangesOnlyStatus : Prop :=
  ∀ s : State, s.busy = true → HostWaits s → ¬ LegalWord s.cmd → step s = .next (failed 4 s)

/-! ## Steps -/

/-- A pending command word that decodes to an instruction: the step is that instruction's meaning (R81, R83). That the
engine moves unless the host's next action is early is the model's schedule (log 2). -/
def Obligations.StepRunsTheDecodedCommand : Prop :=
  ∀ (s : State) (i : Instr), s.busy = true → HostWaits s → decode s.cmd = .ok i → step s = exec i s

/-- A well-formed instruction's word, placed as an accepted CMD write, is what the very next step runs, whatever the
state (R73; the placing is the model's, log 4). -/
def Obligations.PlacedWordRunsNext : Prop :=
  ∀ (s : State) (i : Instr), i.wellFormed = true →
    decodeTableWord 32 (encode i).toNat = some i ∧
    (s.withFetchWord 32 (encode i).toNat).cmd = encode i ∧
    step (s.withFetchWord 32 (encode i).toNat) = exec i (s.withFetchWord 32 (encode i).toNat)

/-- With no command pending and nothing for the host to do the machine keeps all its state (60_exceptions.md R234;
that this is a step is the model's, log 3). -/
def Obligations.IdleMachineKeepsItsState : Prop :=
  ∀ s : State, s.busy = false → s.hostQueue = [] → step s = .next s

/-- The host's next move is made when no command is pending, or when it may come early (R75, R76, R81). A POLL reads
STATUS and goes on exactly where the value read has BUSY = 1 (R98). The schedule is the model's (log 2). -/
def Obligations.HostActsBetweenCommands : Prop :=
  ∀ (s : State) (rest : List HostMove),
    (∀ early a, s.hostQueue = .act early a :: rest → (s.busy = true → early = true) →
      step s = hostAct a { s with hostQueue := rest }) ∧
    (∀ n, s.hostQueue = .poll n :: rest → s.busy = false →
      step s = .next { s with
        hostQueue := rest
        hostReplies := s.hostReplies ++ [.value s.statusWord] }) ∧
    (∀ n, s.hostQueue = .poll (n + 1) :: rest → s.busy = true →
      step s = .next { s with
        hostQueue := .poll n :: rest
        hostReplies := s.hostReplies ++ [.value s.statusWord] })

/-- A command line of a host program (R98: `WR 0x000, enc(M ops)` then POLL), from an idle engine: the write, the reads
that find BUSY = 1, the command's one step and the read that finds it done, in that order. How many reads find BUSY = 1
is free (log 2). -/
def Obligations.CommandLineRunsItsCommand : Prop :=
  ∀ (s t : State) (i : Instr) (early : Bool) (reads : Nat) (rest : List HostMove),
    s.busy = false → i.wellFormed = true → s.hostQueue = expand ⟨early, reads⟩ (.command i) ++ rest →
    let pending : State := { s with
      cmd := encode i, busy := true, done := false, err := false, errcode := 0
      hostQueue := .poll 0 :: rest }
    exec i { pending with
        hostReplies := s.hostReplies ++ List.replicate reads (.value pending.statusWord) } = .next t →
    Host.Core.run core (reads + 3) s =
      .next { t with hostQueue := rest, hostReplies := t.hostReplies ++ [.value t.statusWord] }

/-- Lines written from R97 and R98 assemble to the lines they stand for, and an operand out of range is an assembly
error. -/
def Obligations.SpecLinesAssemble : Prop :=
  assembleLine ['F', 'T', '_', 'C', 'L', 'E', 'A', 'R'] = .line (.command .ftClear) ∧
  assembleLine ['L', 'O', 'O', 'K', 'U', 'P', '_', 'S', '2', 'C', ' ', '\'', 'd', '\''] =
    .line (.command (.lookupS2c 0x64)) ∧
  assembleLine ['G', 'E', 'T', 'B', 'I', 'T', ' ', '0', 'x', 'A', '5', ',', ' ', '8', ' ', ';', ' ', 'b', 'i', 't'] =
    .line (.command (.getbit 0xA5 8)) ∧
  assembleLine ['G', 'E', 'T', 'B', 'I', 'T', ' ', '0', ',', ' ', '1', '6'] = .error ∧
  assembleLine ['L', 'O', 'O', 'K', 'U', 'P', '_', 'S', '2', 'C', ' ', '2', '5', '6'] = .error ∧
  assembleLine ['A', 'T', 'T', 'A', 'C', 'H', ' ', 'x', '"', '0', 'a', ' ', 'b', 'f', '"'] =
    .line (.attach [0x0A, 0xBF])

/-! ## The host's port (10_state.md R22, 20_memory.md) -/

/-- The register map of R22: the offset of every register, and that every other offset is unmapped (R34). -/
def Obligations.RegisterMapIsTheSpecs : Prop :=
  (∀ (off : Nat) (r : Reg), regAt off = some r ↔ off = r.offset) ∧
  [Reg.cmd, .status, .symCount, .tblCount, .rptOrig, .rptPacked, .rptHdr, .lkCtrl, .lkCode 0, .lkCode 1, .lkCode 2,
    .lkCode 3, .gbResult, .inPos, .present 0, .present 1, .present 2, .present 3].map Reg.offset =
  [0x000, 0x008, 0x010, 0x018, 0x020, 0x028, 0x030, 0x038, 0x040, 0x048, 0x050, 0x058, 0x060, 0x068, 0x100, 0x108,
    0x110, 0x118] ∧
  ∀ sym : Symbol, (Reg.freq sym).offset = 0x800 + 8 * sym.toNat

/-- R71: a host access that is not an 8-byte access at BLOCK_BASE + the offset of a mapped register is refused. -/
def Obligations.OtherHostAccessesAreRefused : Prop :=
  ∀ (s : State) (addr width : Nat) (v : Word), s.busy = false →
    (¬ ∃ r : Reg, width = 8 ∧ addr = Config.blockBase + r.offset) →
    hostAct (.read addr width) s = .refused .badAccess ∧ hostAct (.write addr width v) s = .refused .badAccess

/-- R72: what a register read returns, field by field, and that a read changes nothing. (Where the host's
answer is kept is the model's, log 2.) -/
def Obligations.ReadReturnsTheRegisterAndChangesNothing : Prop :=
  ∀ (s : State), s.busy = false →
    (∀ r : Reg, hostAct (.read (Config.blockBase + r.offset) 8) s =
      .next { s with hostReplies := s.hostReplies ++ [.value (s.readReg r)] }) ∧
    s.readReg .cmd = s.cmd ∧ s.readReg .symCount = s.symCount ∧
    s.readReg .rptOrig = s.rptOrig ∧ s.readReg .rptPacked = s.rptPacked ∧ s.readReg .rptHdr = s.rptHdr ∧
    s.readReg .inPos = s.inPtr ∧
    (∀ b, s.readReg (.freq b) = s.freqOf b) ∧
    ((s.readReg .tblCount).toNat = (allSymbols.filter s.isKey).length) ∧
    (∀ (j : Fin 4) (k : Nat), k < 64 →
      (s.readReg (.present j)).getLsbD k = s.present.getLsbD (64 * j.val + k) ∧
      (s.readReg (.lkCode j)).getLsbD k = s.codev.getLsbD (64 * j.val + k)) ∧
    ((s.readReg .gbResult).getLsbD 0 = s.gbResult.getLsbD 0 ∧ ∀ k, 1 ≤ k → (s.readReg .gbResult).getLsbD k = false) ∧
    ((s.readReg .status).getLsbD 0 = s.busy ∧ (s.readReg .status).getLsbD 1 = s.done ∧
      (s.readReg .status).getLsbD 2 = s.err ∧ (s.readReg .status).getLsbD 3 = s.treeBuilt ∧
      (s.readReg .status).getLsbD 4 = s.rootValid ∧ (s.readReg .status).getLsbD 5 = s.s2cValid ∧
      (s.readReg .status).getLsbD 6 = s.c2sValid ∧ (s.readReg .status).getLsbD 7 = s.inAvail ∧
      (s.readReg .status).extractLsb' 8 8 = s.errcode ∧ ∀ k, 16 ≤ k → (s.readReg .status).getLsbD k = false) ∧
    ((s.readReg .lkCtrl).extractLsb' 0 9 = s.lkLen ∧ (s.readReg .lkCtrl).getLsbD 16 = s.lkHit ∧
      (s.readReg .lkCtrl).extractLsb' 24 8 = s.lkSym ∧
      ∀ k, (9 ≤ k ∧ k ≤ 15) ∨ (17 ≤ k ∧ k ≤ 23) ∨ 32 ≤ k → (s.readReg .lkCtrl).getLsbD k = false)

/-- R73: what a register write changes, and that it changes nothing else. -/
def Obligations.WriteChangesOnlyItsRegister : Prop :=
  ∀ (s : State) (v : Word), s.busy = false →
    let write (r : Reg) := hostAct (.write (Config.blockBase + r.offset) 8 v) s
    write .cmd = .next { s with cmd := v, done := false, err := false, errcode := 0, busy := true } ∧
    write .symCount = .next { s with symCount := v } ∧
    write .lkCtrl = .next { s with lkLen := v.extractLsb' 0 9 } ∧
    (∀ r ∈ [Reg.status, .tblCount, .rptOrig, .rptPacked, .rptHdr, .gbResult, .inPos], write r = .next s) ∧
    (∀ b : Symbol, ∃ t, write (.freq b) = .next t ∧ t = { s with freq := t.freq } ∧
      ∀ c, t.freqOf c = if c = b then v else s.freqOf c) ∧
    (∀ j : Fin 4, ∃ t, write (.present j) = .next t ∧ t = { s with present := t.present } ∧
      ∀ k, k < 256 → t.present.getLsbD k = if k / 64 = j.val then v.getLsbD (k % 64) else s.present.getLsbD k) ∧
    (∀ j : Fin 4, ∃ t, write (.lkCode j) = .next t ∧ t = { s with codev := t.codev } ∧
      ∀ k, k < 256 → t.codev.getLsbD k = if k / 64 = j.val then v.getLsbD (k % 64) else s.codev.getLsbD k)

/-- R75: while STATUS.BUSY = 1 the host may only read STATUS; every other access is refused. (Reset is no access: the
model admits it by R250, log 1. Where the host's answer is kept is log 2.) -/
def Obligations.BusyHostMayOnlyReadStatus : Prop :=
  ∀ (s : State) (a : HostAction), s.busy = true →
    hostAct (.read (Config.blockBase + 0x008) 8) s =
      .next { s with hostReplies := s.hostReplies ++ [.value s.statusWord] } ∧
    (a ≠ .reset → a ≠ .read (Config.blockBase + 0x008) 8 → hostAct a s = .refused .busyAccess)

/-- The stream actions of R76 while BUSY = 0: Attach (up to MAX_STREAM, log 6), Detach and Drain. (Where the
host's answer is kept is the model's, log 2.) -/
def Obligations.AttachDetachAndDrain : Prop :=
  ∀ (s : State) (bytes : List Byte), s.busy = false →
    (bytes.length ≤ Config.maxStream →
      hostAct (.attach bytes) s = .next { s with inData := bytes, inPtr := 0, inAvail := true }) ∧
    (Config.maxStream < bytes.length → hostAct (.attach bytes) s = .refused .attachTooLong) ∧
    hostAct .detach s = .next { s with inAvail := false, inData := [], inPtr := 0 } ∧
    hostAct .drain s = .next { s with out := [], hostReplies := s.hostReplies ++ [.bytes s.out] }

/-- SETKEY (R98): the PRESENT register of the symbol is read, then written back with the symbol's bit set, so exactly
that key is added. (One host action for the two accesses is the model's, log 19.) -/
def Obligations.SetKeyAddsOneKey : Prop :=
  ∀ (s : State) (b : Symbol), s.busy = false →
    ∃ t, hostAct (.setKey b) s = .next t ∧
      t = { s with
        present := t.present
        hostReplies := s.hostReplies ++ [.value (s.present.extractLsb' (64 * (b.toNat / 64)) 64)] } ∧
      ∀ c, t.isKey c = (s.isKey c || c == b)

/-- R251: the value every piece of engine state has after a reset. OUT is not changed (R42); the host's own part of the
state is the model's (log 21), and the contents of the code tables, which the spec leaves unspecified, are not said. -/
def Obligations.ResetGivesEveryResetValue : Prop :=
  ∀ s : State, s.busy = false →
    ∃ t, hostAct .reset s = .next t ∧
      t.cmd = 0 ∧ t.busy = false ∧ t.done = false ∧ t.err = false ∧ t.errcode = 0 ∧
      t.treeBuilt = false ∧ t.rootValid = false ∧ t.s2cValid = false ∧ t.c2sValid = false ∧ t.inAvail = false ∧
      t.symCount = 0 ∧ t.readReg .tblCount = 0 ∧ t.rptOrig = 0 ∧ t.rptPacked = 0 ∧ t.rptHdr = 0 ∧
      t.lkLen = 0 ∧ t.lkHit = false ∧ t.lkSym = 0 ∧ t.codev = 0 ∧ t.gbResult = 0 ∧
      (∀ b, t.freqOf b = 0 ∧ t.isKey b = false) ∧ t.inPtr = 0 ∧ t.inData = [] ∧
      t.arena.length = 0 ∧ t.root = none ∧ t.out = s.out

/-- R250: a reset while a command is pending abandons it: every register and table is reset, and OUT holds a part, from
the first byte on, of what the command would have appended; nothing of an illegal word, which appends nothing. Which
part is a free value (log 5), that reset is admitted while BUSY = 1 is log 1, and the host's part is kept (log 21). The
contents of the code tables, which R251 leaves unspecified, are not said. -/
def Obligations.ResetAbandonsThePendingCommand : Prop :=
  ∀ s : State, s.busy = true →
    ∃ u kept, hostAct .reset s = .next u ∧
      u = { State.reset with
        s2c := u.s2c, c2s := u.c2s
        out := u.out, hostQueue := s.hostQueue, hostReplies := s.hostReplies, draws := s.draws + 1 } ∧
      u.out = s.out ++ kept ∧
      (∀ t, runPending s = .next t → ∃ lost, t.out = s.out ++ kept ++ lost) ∧
      (¬ LegalWord s.cmd → kept = [])

/-- The invariant holds at reset. -/
def Obligations.InvariantHoldsAtReset : Prop := Inv State.reset

/-- Every step, of the engine or of the host, keeps the invariant (10_state.md R24, R40, R45, R46, R50, R51, R53): the
input position stays in the stream, STATUS stays consistent, the arena stays the arena of a built tree or empty, and a
valid code table stays the current tree's. -/
def Obligations.StepKeepsTheInvariant : Prop :=
  ∀ s t : State, Inv s → step s = .next t → Inv t

/-! ## Every command -/

/-- Every accepted command completes (R228, R262): BUSY falls and DONE rises, with the error field unchanged or with
one of the codes of R221; there is no fault, and the one refusal is FT_SCAN's counter overflow (R111), which COMPRESS
runs too (log 13). That success leaves the error fields as the acceptance set them is log 20. -/
def Obligations.EveryCommandCompletes : Prop :=
  ∀ (i : Instr) (s : State),
    (∃ t, exec i s = .next t ∧ t.busy = false ∧ t.done = true ∧
      ((t.err = s.err ∧ t.errcode = s.errcode) ∨ (t.err = true ∧ 1 ≤ t.errcode.toNat ∧ t.errcode.toNat ≤ 7))) ∨
    ((i = .ftScan ∨ i = .compress) ∧ exec i s = .refused .countOverflow)

/-- R222: a command that reads the input checks IN_AVAIL before it changes any state: ERR_INPUT and nothing else. PACK
and UNPACK check the tree first (R227). -/
def Obligations.ErrInputBeforeAnyChange : Prop :=
  ∀ s : State, s.inAvail = false →
    (∀ i ∈ [Instr.ftScan, .inRewind, .hdrRead, .compress, .decompress], exec i s = .next (failed 1 s)) ∧
    (s.treeBuilt = true → exec .pack s = .next (failed 1 s) ∧ exec .unpack s = .next (failed 1 s))

/-- ERR_NOTREE (R225): a lookup, PACK or UNPACK with no built tree changes no state other than STATUS, and is reported
before ERR_INPUT (R227). -/
def Obligations.ErrNoTreeBeforeAnyChange : Prop :=
  ∀ (s : State) (sym : Nat), s.treeBuilt = false →
    ∀ i ∈ [Instr.lookupS2c sym, .lookupC2s, .pack, .unpack], exec i s = .next (failed 5 s)

/-- No command writes CMD, the input bytes, IN_AVAIL or the host's own state, and the engine only appends to OUT
(R40: "The engine never writes IN_DATA"; R42). -/
def Obligations.CommandsOnlyAppendToTheOutput : Prop :=
  ∀ (i : Instr) (s t : State), exec i s = .next t →
    s.out <+: t.out ∧ t.inData = s.inData ∧ t.inAvail = s.inAvail ∧ t.cmd = s.cmd ∧
    t.hostQueue = s.hostQueue ∧ t.hostReplies = s.hostReplies ∧ t.draws = s.draws

/-- R47: only TREE_BUILD, COMPRESS, DECOMPRESS and reset change the arena, ROOT and TREE_BUILT; no other command and no
other host action does, a write to FREQ, PRESENT or SYM_COUNT included. -/
def Obligations.OnlyTreeCommandsChangeTheTree : Prop :=
  (∀ (i : Instr) (s t : State), i ≠ .treeBuild → i ≠ .compress → i ≠ .decompress → exec i s = .next t →
    t.arena = s.arena ∧ t.root = s.root ∧ t.treeBuilt = s.treeBuilt ∧ t.rootValid = s.rootValid) ∧
  (∀ (a : HostAction) (s t : State), a ≠ .reset → hostAct a s = .next t →
    t.arena = s.arena ∧ t.root = s.root ∧ t.treeBuilt = s.treeBuilt ∧ t.rootValid = s.rootValid)

/-- Which moves write the lookup registers and GB_RESULT (R28, R29, R32, R57). Of the commands, the two lookups and
GETBIT. Of the host's actions but reset, a write to LK_CTRL writes LEN, a write to an LK_CODE register writes CODEV, and
none writes HIT, SYM or GB_RESULT. -/
def Obligations.ResultRegistersBelongToTheirCommands : Prop :=
  (∀ (i : Instr) (s t : State), exec i s = .next t →
    (i ≠ .lookupC2s → (∀ sym, i ≠ .lookupS2c sym) →
      t.lkLen = s.lkLen ∧ t.lkHit = s.lkHit ∧ t.lkSym = s.lkSym ∧ t.codev = s.codev) ∧
    ((∀ b idx, i ≠ .getbit b idx) → t.gbResult = s.gbResult)) ∧
  (∀ (a : HostAction) (s t : State), a ≠ .reset → hostAct a s = .next t →
    t.lkHit = s.lkHit ∧ t.lkSym = s.lkSym ∧ t.gbResult = s.gbResult ∧
    ((∀ v, a ≠ .write (Config.blockBase + 0x038) 8 v) → t.lkLen = s.lkLen) ∧
    ((∀ v, ∀ off ∈ [0x040, 0x048, 0x050, 0x058], a ≠ .write (Config.blockBase + off) 8 v) → t.codev = s.codev))

/-! ## The frequency table (40_freq_table.md) -/

/-- R110: FT_CLEAR empties FREQ, PRESENT and SYM_COUNT, and changes nothing else but STATUS. -/
def Obligations.FtClearEmptiesTheTable : Prop :=
  ∀ s : State, ∃ t, exec .ftClear s = .next t ∧
    t = completed { s with freq := t.freq, present := t.present, symCount := 0 } ∧
    (∀ b, t.freqOf b = 0 ∧ t.isKey b = false) ∧ t.readReg .tblCount = 0

/-- R111: FT_SCAN counts the unread bytes into the table and into SYM_COUNT, reports their number and leaves in_ptr at
the end; it is refused exactly where a count would pass 2^64 − 1, and completes with ERR_INPUT with no input. -/
def Obligations.FtScanCountsTheUnreadBytes : Prop :=
  ∀ s : State, StreamsOk s →
    (s.inAvail = false → exec .ftScan s = .next (failed 1 s)) ∧
    (s.inAvail = true →
      (∀ b, (s.freqOf b).toNat + s.unread.count b < 2 ^ 64) → s.symCount.toNat + s.unread.length < 2 ^ 64 →
      ∃ t, exec .ftScan s = .next t ∧
        t = completed { s with
          freq := t.freq
          present := t.present
          symCount := s.symCount + BitVec.ofNat 64 s.unread.length
          rptOrig := BitVec.ofNat 64 s.unread.length
          inPtr := BitVec.ofNat 64 s.inData.length } ∧
        ∀ b, (t.freqOf b).toNat = (s.freqOf b).toNat + s.unread.count b ∧
          t.isKey b = (s.isKey b || decide (b ∈ s.unread))) ∧
    (s.inAvail = true →
      ((∃ b, 2 ^ 64 ≤ (s.freqOf b).toNat + s.unread.count b) ∨ 2 ^ 64 ≤ s.symCount.toNat + s.unread.length) →
      exec .ftScan s = .refused .countOverflow)

/-- R112: IN_REWIND sets in_ptr to 0 and changes nothing else but STATUS; ERR_INPUT with no input. -/
def Obligations.InRewindResetsThePosition : Prop :=
  ∀ s : State,
    (s.inAvail = true → exec .inRewind s = .next (completed { s with inPtr := 0 })) ∧
    (s.inAvail = false → exec .inRewind s = .next (failed 1 s))

/-- R113: after FT_CLEAR, IN_REWIND and FT_SCAN over an attached sequence the table is the sequence's: its bytes are the
keys, FREQ their numbers of occurrences, SYM_COUNT its length and the sum of FREQ. -/
def Obligations.ScannedTableCountsTheSequence : Prop :=
  ∀ s : State, s.inAvail = true → s.inData.length ≤ Config.maxStream →
    ∃ s₁ s₂ t, exec .ftClear s = .next s₁ ∧ exec .inRewind s₁ = .next s₂ ∧ exec .ftScan s₂ = .next t ∧
      (∀ b, (t.isKey b = true ↔ b ∈ s.inData) ∧ (t.freqOf b).toNat = s.inData.count b) ∧
      t.symCount.toNat = s.inData.length ∧
      ((allSymbols.map fun b => (t.freqOf b).toNat).sum = s.inData.length)

/-! ## The tree (41_tree.md) -/

/-- TREE_BUILD completes from every table and changes only the arena, ROOT and the four tree flags (R120), the old code
tables being discarded. With n keys it makes 2n − 1 records and the root is the last one (R124); with none it builds the
empty tree (R125). -/
def Obligations.TreeBuildMakesAStrictBinaryTree : Prop :=
  ∀ s : State, ∃ t, exec .treeBuild s = .next t ∧
    t = completed { s with
      arena := t.arena
      root := t.root
      rootValid := t.rootValid
      treeBuilt := true
      s2c := t.s2c
      s2cValid := false
      c2s := t.c2s
      c2sValid := false } ∧
    (popcount s.present = 0 → t.arena = [] ∧ t.root = none ∧ t.rootValid = false) ∧
    (1 ≤ popcount s.present →
      t.arena.length = 2 * popcount s.present - 1 ∧ t.root = some (2 * popcount s.present - 2) ∧
      t.rootValid = true) ∧
    ArenaOk t.arena

/-- R121: leaf k is the k-th present symbol, counted from 0, with frequency zext_72(FREQ[s]); a symbol that is no key
has no leaf. -/
def Obligations.LeavesAreTheKeysInAscendingOrder : Prop :=
  ∀ s : State, ∃ t, exec .treeBuild s = .next t ∧
    (∀ b, s.isKey b = true →
      t.arena[((List.range b.toNat).filter s.present.getLsbD).length]? = some (.leaf b ((s.freqOf b).setWidth 72))) ∧
    (∀ k b f, t.arena[k]? = some (.leaf b f) → s.isKey b = true ∧ k < popcount s.present)

/-- The merge order (R122), the child orientation (R123) and the exact sum (R126): when an internal node m is made, its
children are the two nodes not yet merged that come first in the priority order, the first of them on the left, and
its frequency is the exact sum of theirs. -/
def Obligations.EachMergeTakesTheTwoLeastNodes : Prop :=
  ∀ s : State, ∃ t, exec .treeBuild s = .next t ∧
    ∀ m f l r, t.arena[m]? = some (.internal f l r) →
      l < m ∧ r < m ∧ ¬ ChildBefore t.arena m l ∧ ¬ ChildBefore t.arena m r ∧
      NodeBefore t.arena l r ∧
      (∀ k < m, k ≠ l → k ≠ r → ¬ ChildBefore t.arena m k → NodeBefore t.arena r k) ∧
      ∃ x y, t.arena[l]? = some x ∧ t.arena[r]? = some y ∧ f.toNat = x.freq.toNat + y.freq.toNat

/-- R127: the tree is a function of the table alone. -/
def Obligations.TreeDependsOnTheTableAlone : Prop :=
  ∀ s s' : State, (∀ b, s.isKey b = s'.isKey b) → (∀ b, s.isKey b = true → s.freqOf b = s'.freqOf b) →
    ∃ t t', exec .treeBuild s = .next t ∧ exec .treeBuild s' = .next t' ∧
      t.arena = t'.arena ∧ t.root = t'.root ∧ t.codes = t'.codes

/-- R130: with at least two keys, a symbol's code is exactly the path of edges from the root to its leaf, left '0' and
right '1'; with one key it is "0" (R131); with none there is no code (R125). -/
def Obligations.CodesAreTheRootToLeafPaths : Prop :=
  ∀ s : State, ∃ t, exec .treeBuild s = .next t ∧
    (2 ≤ popcount s.present →
      ∀ b c, t.codes.lookup b = some c ↔
        ∃ k f, t.root = some k ∧ follow t.arena k c = some (.leaf b f)) ∧
    (popcount s.present = 1 → ∃ b, s.isKey b = true ∧ t.codes = [(b, [false])]) ∧
    (popcount s.present = 0 → t.codes = [])

/-- R133: exactly the keys have codes (R121, R130), the code set is prefix-free, and for at least two keys it is complete: the sum of
2^(−length) is 1. -/
def Obligations.CodeSetIsPrefixFreeAndComplete : Prop :=
  ∀ s : State, ∃ t, exec .treeBuild s = .next t ∧
    (∀ b, (t.codes.lookup b).isSome = s.isKey b) ∧
    (∀ a b c d, a ≠ b → t.codes.lookup a = some c → t.codes.lookup b = some d → ¬ c <+: d) ∧
    (2 ≤ popcount s.present →
      ((allSymbols.filterMap fun b => t.codes.lookup b).map fun c => (1 / 2 : ℚ) ^ c.length).sum = 1)

/-- R128 and R131: no code is empty, and none is longer than max(1, n − 1) bits, so none is longer than CODE_MAX. -/
def Obligations.CodesAreShorterThanTheKeysAreMany : Prop :=
  ∀ s : State, ∃ t, exec .treeBuild s = .next t ∧
    ∀ b c, t.codes.lookup b = some c →
      1 ≤ c.length ∧ c.length ≤ max 1 (popcount s.present - 1) ∧ c.length ≤ Config.codeMax

/-- R137: for 256 keys with equal counts every code has length 8 and is the binary numeral of its symbol. -/
def Obligations.EqualCountsGiveTheBinaryNumerals : Prop :=
  ∀ (s : State) (f : Word), (∀ b, s.isKey b = true ∧ s.freqOf b = f) →
    ∃ t, exec .treeBuild s = .next t ∧
      ∀ b : Symbol, ∃ c, t.codes.lookup b = some c ∧ c.length = 8 ∧ bitVal c = b.toNat

/-- R135: LOOKUP_S2C on a built tree: the symbol is echoed; on a hit LEN and CODEV are the code's length and value, on a
miss 0; the symbol→code table is filled, and nothing else changes but STATUS. ERR_NOTREE with no tree. -/
def Obligations.LookupS2cReadsTheCode : Prop :=
  ∀ (s : State) (sym : Nat), Inv s → sym < 256 →
    (s.treeBuilt = false → exec (.lookupS2c sym) s = .next (failed 5 s)) ∧
    (s.treeBuilt = true →
      ∃ t, exec (.lookupS2c sym) s = .next t ∧
        t = completed { s with
          s2c := t.s2c
          s2cValid := true
          lkSym := BitVec.ofNat 8 sym
          lkHit := t.lkHit
          lkLen := t.lkLen
          codev := t.codev } ∧
        (∀ b, t.codeOf b = s.codes.lookup b) ∧
        (∀ c, s.codes.lookup (BitVec.ofNat 8 sym) = some c →
          t.lkHit = true ∧ t.lkLen.toNat = c.length ∧ t.codev.toNat = bitVal c) ∧
        (s.codes.lookup (BitVec.ofNat 8 sym) = none → t.lkHit = false ∧ t.lkLen = 0 ∧ t.codev = 0))

/-- R136: LOOKUP_C2S on a built tree: a hit exactly where some symbol's code has length LEN and value CODEV mod 2^LEN,
with that symbol, else a miss with SYM = 0; the code→symbol table is filled, and nothing else changes but STATUS.
ERR_NOTREE with no tree. Lengths 0 and above CODE_MAX always miss. -/
def Obligations.LookupC2sReadsTheSymbol : Prop :=
  ∀ s : State, Inv s →
    (s.treeBuilt = false → exec .lookupC2s s = .next (failed 5 s)) ∧
    (s.treeBuilt = true →
      ∃ t, exec .lookupC2s s = .next t ∧
        t = completed { s with c2s := t.c2s, c2sValid := true, lkHit := t.lkHit, lkSym := t.lkSym } ∧
        (∀ c b, t.symbolFor c = some b ↔ s.codes.lookup b = some c) ∧
        (∀ b c, s.codes.lookup b = some c → c.length = s.lkLen.toNat →
          bitVal c = s.codev.toNat % 2 ^ s.lkLen.toNat → t.lkHit = true ∧ t.lkSym = b) ∧
        ((¬ ∃ b c, s.codes.lookup b = some c ∧ c.length = s.lkLen.toNat ∧
          bitVal c = s.codev.toNat % 2 ^ s.lkLen.toNat) → t.lkHit = false ∧ t.lkSym = 0) ∧
        (s.lkLen = 0 ∨ Config.codeMax < s.lkLen.toNat → t.lkHit = false))

/-! ## The packer (42_pack.md) -/

/-- PACK where every unread byte has a code (R150 to R152, R154): the concatenated codes, packed most significant bit
first and zero-padded to a byte boundary, are appended to OUT; the reports are the bytes read and written; in_ptr is at
the end; nothing else changes but the symbol→code table and STATUS. -/
def Obligations.PackAppendsTheConcatenatedCodes : Prop :=
  ∀ (s : State) (cs : List BitString), Inv s → s.treeBuilt = true → s.inAvail = true → CodesAre s s.unread cs →
    ∃ t payload, exec .pack s = .next t ∧ PackedAs payload cs.flatten ∧
      t = completed { s with
        s2c := t.s2c
        s2cValid := true
        out := s.out ++ payload
        rptOrig := t.rptOrig
        rptPacked := t.rptPacked
        inPtr := t.inPtr } ∧
      (∀ b, t.codeOf b = s.codes.lookup b) ∧
      t.rptOrig.toNat = s.unread.length ∧ t.rptPacked.toNat = (cs.flatten.length + 7) / 8 ∧
      t.inPtr.toNat = s.inData.length

/-- R153: PACK at a byte without a code: ERR_NOCODE; the whole bytes packed before it stay on OUT, the partial byte is
discarded, the reports count what was packed, and in_ptr is just past the offending byte. -/
def Obligations.PackStopsAtAByteWithoutACode : Prop :=
  ∀ (s : State) (coded : List Byte) (cs : List BitString) (b : Byte) (rest : List Byte),
    Inv s → s.treeBuilt = true → s.inAvail = true → s.unread = coded ++ b :: rest →
    CodesAre s coded cs → s.codes.lookup b = none →
    ∃ t whole, exec .pack s = .next t ∧ whole.length = cs.flatten.length / 8 ∧
      streamBits whole = cs.flatten.take (8 * whole.length) ∧
      t = failed 7 { s with
        s2c := t.s2c
        s2cValid := true
        out := s.out ++ whole
        rptOrig := t.rptOrig
        rptPacked := t.rptPacked
        inPtr := t.inPtr } ∧
      t.rptOrig.toNat = coded.length ∧ t.rptPacked.toNat = whole.length ∧
      t.inPtr.toNat = s.inPtr.toNat + coded.length + 1

/-! ## The unpacker (43_unpack.md) -/

/-- R160 and R161: GETBIT gives `(b >> (8 − i)) & 1` for an index 1 to 8, and ERR_ARG with GB_RESULT unchanged for every
other index a command word can carry. -/
def Obligations.GetbitExtractsOneBit : Prop :=
  ∀ (s : State) (b : Byte) (i : Nat),
    (1 ≤ i → i ≤ 8 → ∃ t, exec (.getbit b.toNat i) s = .next t ∧
      t = completed { s with gbResult := t.gbResult } ∧ t.gbResult.toNat = (b.toNat >>> (8 - i)) &&& 1 ∧
      (t.readReg .gbResult).toNat = (b.toNat >>> (8 - i)) &&& 1) ∧
    (i = 0 ∨ 9 ≤ i ∧ i ≤ 15 → exec (.getbit b.toNat i) s = .next (failed 3 s))

/-- UNPACK of N ≥ 1 symbols whose codes begin the unread bits (R162, R163, R164, R167, R168): exactly those symbols are
emitted, the bytes consumed are those with at least one bit read, in_ptr is just past them, and nothing after the N-th
match is read. -/
def Obligations.UnpackDecodesTheExpectedSymbols : Prop :=
  ∀ (s : State) (syms : List Symbol) (cs : List BitString),
    Inv s → s.treeBuilt = true → s.inAvail = true →
    syms.length = s.symCount.toNat → 1 ≤ syms.length → CodesAre s syms cs → cs.flatten <+: streamBits s.unread →
    ∃ t, exec .unpack s = .next t ∧
      t = completed { s with
        c2s := t.c2s
        c2sValid := true
        out := s.out ++ syms
        rptOrig := s.symCount
        rptPacked := t.rptPacked
        inPtr := t.inPtr } ∧
      (∀ c b, t.symbolFor c = some b ↔ s.codes.lookup b = some c) ∧
      t.rptPacked.toNat = (cs.flatten.length + 7) / 8 ∧
      t.inPtr.toNat = s.inPtr.toNat + (cs.flatten.length + 7) / 8

/-- R165: UNPACK where fewer than N codes can be matched before the input ends: ERR_CORRUPT, with the symbols emitted so
far on OUT and counted, every unread byte consumed, and in_ptr at the end. -/
def Obligations.UnpackReportsAnExhaustedPayload : Prop :=
  ∀ (s : State) (syms : List Symbol) (cs : List BitString) (left : BitString),
    Inv s → s.treeBuilt = true → s.inAvail = true →
    syms.length < s.symCount.toNat → CodesAre s syms cs → streamBits s.unread = cs.flatten ++ left →
    (∀ b c, s.codes.lookup b = some c → ¬ c <+: left) →
    ∃ t, exec .unpack s = .next t ∧
      t = failed 2 { s with
        c2s := t.c2s
        c2sValid := true
        out := s.out ++ syms
        rptOrig := t.rptOrig
        rptPacked := t.rptPacked
        inPtr := t.inPtr } ∧
      t.rptOrig.toNat = syms.length ∧ t.rptPacked.toNat = s.unread.length ∧ t.inPtr.toNat = s.inData.length

/-- UNPACK with an expected count of 0 reads and emits nothing and succeeds (R162, R164). -/
def Obligations.UnpackOfNothingReadsNothing : Prop :=
  ∀ s : State, s.treeBuilt = true → s.inAvail = true → s.symCount = 0 →
    ∃ t, exec .unpack s = .next t ∧
      t = completed { s with c2s := t.c2s, c2sValid := true, rptOrig := 0, rptPacked := 0 }

/-- R166: the accumulator of UNPACK and the walk of the tree with a dead state give the same symbols and the same stop
on every bit string. -/
def Obligations.AccumulatorAndTreeWalkAgree : Prop :=
  ∀ (s : State) (bits : BitString) (n : Nat), Inv s → s.treeBuilt = true →
    let u := bits.foldl (unpackBit (fun c => s.ensureC2s.symbolFor c) n) Unpacker.start
    let w := bits.foldl (walkBit s.arena s.root n) ⟨s.root, [], false⟩
    u.emitted = w.emitted ∧ u.stopped = w.stopped

/-! ## The container header (44_container.md) -/

/-- The header integer transfers (R180): OutWrite64's byte j holds bits 8j+7:8j, InRead64 reads those bytes back, and
fewer than 8 bytes are a truncation. -/
def Obligations.HeaderIntegersAreLittleEndian : Prop :=
  ∀ (v : Word) (bytes : List Byte),
    outBytes64 v = le64 v ∧ inRead64 (le64 v ++ bytes) = some (v, bytes) ∧
    (inRead64 bytes = none ↔ bytes.length < 8)

/-- R183 and R182: HDR_WRITE appends the header of the current table: the number of keys, SYM_COUNT as it stands, and
one entry per key in ascending symbol order, 16 + 9·n bytes; RPT_HDR is that length, and nothing else changes but
STATUS. -/
def Obligations.HdrWriteAppendsTheHeader : Prop :=
  ∀ s : State, ∃ t es, exec .hdrWrite s = .next t ∧
    Ascending es ∧ (∀ b f, (b, f) ∈ es ↔ s.isKey b = true ∧ f = s.freqOf b) ∧ es.length = popcount s.present ∧
    (header es s.symCount).length = 16 + 9 * es.length ∧
    t = completed { s with
      out := s.out ++ header es s.symCount
      rptHdr := BitVec.ofNat 64 (16 + 9 * es.length) }

/-- HDR_READ of a well-formed header (R184): the table holds exactly its entries, SYM_COUNT its count, RPT_HDR its
length, in_ptr is at the first payload byte, and nothing else changes but STATUS. The entries may come in any order
(R186). -/
def Obligations.HdrReadLoadsTheTable : Prop :=
  ∀ (s : State) (es : List (Symbol × Word)) (n : Word) (rest : List Byte),
    StreamsOk s → s.inAvail = true → (es.map Prod.fst).Nodup → s.unread = header es n ++ rest →
    ∃ t, exec .hdrRead s = .next t ∧
      t = completed { s with
        freq := t.freq
        present := t.present
        symCount := n
        rptHdr := BitVec.ofNat 64 (16 + 9 * es.length)
        inPtr := t.inPtr } ∧
      TableHolds t es ∧ t.unread = rest ∧ t.inPtr.toNat = s.inPtr.toNat + 16 + 9 * es.length

/-- A malformed header (R185), truncated in a count or an entry, with an entry count above 256, or with a repeated
symbol. HDR_READ completes with ERR_HEADER: the table holds the entries before the failing one, SYM_COUNT and RPT_HDR are
unchanged, and in_ptr is where the failing read left it. DECOMPRESS of it, from the start of the input, completes with
the same table and in_ptr, its tree invalidated (R205), and SYM_COUNT and the reports unchanged (R204). -/
def Obligations.HdrReadReportsAMalformedHeader : Prop :=
  ∀ (s : State) (es : List (Symbol × Word)) (read : Nat), StreamsOk s → s.inAvail = true →
    (MalformedHeader s.unread es read →
      ∃ t, exec .hdrRead s = .next t ∧
        t = failed 6 { s with freq := t.freq, present := t.present, inPtr := t.inPtr } ∧
        TableHolds t es ∧ t.inPtr.toNat = s.inPtr.toNat + read) ∧
    (MalformedHeader s.inData es read →
      ∃ t, exec .decompress s = .next t ∧
        t = failed 6 { s with
          freq := t.freq
          present := t.present
          arena := []
          root := none
          rootValid := false
          treeBuilt := false
          s2c := t.s2c
          s2cValid := false
          c2s := t.c2s
          c2sValid := false
          inPtr := t.inPtr } ∧
        TableHolds t es ∧ t.inPtr.toNat = read)

/-- R188: HDR_READ of the bytes HDR_WRITE appended reproduces PRESENT, FREQ of every key, SYM_COUNT and RPT_HDR, and
leaves FREQ of every absent key 0. -/
def Obligations.HeaderRoundTrip : Prop :=
  ∀ s : State, ∃ t bytes, exec .hdrWrite s = .next t ∧ t.out = s.out ++ bytes ∧
    ∀ (u : State) (rest : List Byte), StreamsOk u → u.inAvail = true → u.unread = bytes ++ rest →
      ∃ v, exec .hdrRead u = .next v ∧ v.present = s.present ∧
        (∀ b, v.freqOf b = if s.isKey b then s.freqOf b else 0) ∧
        v.symCount = s.symCount ∧ v.rptHdr = t.rptHdr

/-! ## COMPRESS and DECOMPRESS (45_orchestration.md) -/

/-- COMPRESS of any attached input (R200, R201): OUT gets the header of the input's table and then the packed codes of
the input; the table, the tree built from it, the flags, the three reports and in_ptr are as the rules say, no error is
reported, and nothing else changes. -/
def Obligations.CompressWritesTheContainer : Prop :=
  ∀ s : State, s.inAvail = true → s.inData.length ≤ Config.maxStream →
    ∃ t es cs payload, exec .compress s = .next t ∧
      Ascending es ∧
      (∀ b f, (b, f) ∈ es ↔ b ∈ s.inData ∧ f = BitVec.ofNat 64 (s.inData.count b)) ∧
      TableHolds t es ∧ CodesAre t s.inData cs ∧ PackedAs payload cs.flatten ∧
      (∃ u, exec .treeBuild { s with freq := t.freq, present := t.present } = .next u ∧
        t.arena = u.arena ∧ t.root = u.root ∧ t.rootValid = u.rootValid) ∧
      (∀ b, t.codeOf b = t.codes.lookup b) ∧
      t = completed { s with
        out := s.out ++ header es (BitVec.ofNat 64 s.inData.length) ++ payload
        freq := t.freq
        present := t.present
        symCount := BitVec.ofNat 64 s.inData.length
        arena := t.arena
        root := t.root
        rootValid := t.rootValid
        treeBuilt := true
        s2c := t.s2c
        s2cValid := true
        c2s := t.c2s
        c2sValid := false
        rptOrig := BitVec.ofNat 64 s.inData.length
        rptPacked := BitVec.ofNat 64 payload.length
        rptHdr := BitVec.ofNat 64 (16 + 9 * es.length)
        inPtr := BitVec.ofNat 64 s.inData.length }

/-- R99: the component commands in the order of R200, from the start of the input, leave the same output stream and
report values as COMPRESS. -/
def Obligations.CompressEqualsItsComponents : Prop :=
  ∀ s : State, s.inAvail = true → s.inData.length ≤ Config.maxStream → s.inPtr = 0 →
    ∃ s₁ s₂ s₃ s₄ s₅ s₆ t, exec .ftClear s = .next s₁ ∧ exec .ftScan s₁ = .next s₂ ∧ exec .treeBuild s₂ = .next s₃ ∧
      exec .hdrWrite s₃ = .next s₄ ∧ exec .inRewind s₄ = .next s₅ ∧ exec .pack s₅ = .next s₆ ∧
      exec .compress s = .next t ∧
      t.out = s₆.out ∧ t.rptOrig = s₆.rptOrig ∧ t.rptPacked = s₆.rptPacked ∧ t.rptHdr = s₆.rptHdr

/-- DECOMPRESS of a well-formed container of N ≥ 1 symbols (R202, R204): the table is its entries, the tree is the one
TREE_BUILD makes of that table, exactly the N symbols whose codes begin the payload are appended, the reports are the
bytes consumed, N and the header length, and nothing else changes but STATUS and the code tables. -/
def Obligations.DecompressDecodesTheContainer : Prop :=
  ∀ (s w : State) (es : List (Symbol × Word)) (n : Word) (payload : List Byte),
    s.inAvail = true → s.inData.length ≤ Config.maxStream → (es.map Prod.fst).Nodup →
    s.inData = header es n ++ payload → 1 ≤ n.toNat → TableHolds w es →
    ∃ u t, exec .treeBuild w = .next u ∧ exec .decompress s = .next t ∧
      ∀ (syms : List Symbol) (cs : List BitString),
        syms.length = n.toNat → CodesAre u syms cs → cs.flatten <+: streamBits payload →
        t = completed { s with
          out := s.out ++ syms
          freq := t.freq
          present := t.present
          symCount := n
          arena := u.arena
          root := u.root
          rootValid := u.rootValid
          treeBuilt := true
          s2c := t.s2c
          s2cValid := false
          c2s := t.c2s
          c2sValid := true
          rptOrig := n
          rptPacked := t.rptPacked
          rptHdr := BitVec.ofNat 64 (16 + 9 * es.length)
          inPtr := t.inPtr } ∧
        TableHolds t es ∧ (∀ c b, t.symbolFor c = some b ↔ u.codes.lookup b = some c) ∧
        t.rptPacked.toNat = (cs.flatten.length + 7) / 8 ∧
        t.inPtr.toNat = 16 + 9 * es.length + (cs.flatten.length + 7) / 8

/-- R203: DECOMPRESS of a container with an original symbol count of 0: no byte beyond the header is read, nothing is
appended, the reports are 0, 0 and the header length, and no tree is built, whatever the entries. -/
def Obligations.DecompressOfNoSymbolsBuildsNoTree : Prop :=
  ∀ (s : State) (es : List (Symbol × Word)) (payload : List Byte),
    s.inAvail = true → s.inData.length ≤ Config.maxStream → (es.map Prod.fst).Nodup →
    s.inData = header es 0 ++ payload →
    ∃ t, exec .decompress s = .next t ∧
      t = completed { s with
        freq := t.freq
        present := t.present
        symCount := 0
        arena := []
        root := none
        rootValid := false
        treeBuilt := false
        s2c := t.s2c
        s2cValid := false
        c2s := t.c2s
        c2sValid := false
        rptOrig := 0
        rptPacked := 0
        rptHdr := BitVec.ofNat 64 (16 + 9 * es.length)
        inPtr := t.inPtr } ∧
      TableHolds t es ∧ t.unread = payload ∧ t.inPtr.toNat = 16 + 9 * es.length

/-- R206, the round-trip law: for every byte sequence S of at most MAX_STREAM bytes, DECOMPRESS of what COMPRESS
appended for S appends exactly S, without an error. -/
def Obligations.DecompressInvertsCompress : Prop :=
  ∀ s : State, s.inAvail = true → s.inData.length ≤ Config.maxStream →
    ∃ t container, exec .compress s = .next t ∧ t.out = s.out ++ container ∧ t.err = s.err ∧
      ∀ u : State, u.inAvail = true → u.inData = container →
        ∃ v, exec .decompress u = .next v ∧ v.out = u.out ++ s.inData ∧ v.err = u.err ∧ v.errcode = u.errcode

/-- A payload that runs out before N symbols (R202, R204, R207): DECOMPRESS of any well-formed container completes with
ERR_CORRUPT where no N codes can be matched in its payload, no entries included; the symbols matched stay on OUT, the
reports are their number, all the payload bytes and the header length, and in_ptr is at the end. In particular, removing
one or more bytes from the end of the payload of a compressed sequence of at least one byte does so, with fewer symbols
emitted than the sequence has, each of them right. -/
def Obligations.TruncatedPayloadIsCorrupt : Prop :=
  (∀ (s w : State) (es : List (Symbol × Word)) (n : Word) (payload : List Byte),
    s.inAvail = true → s.inData.length ≤ Config.maxStream → (es.map Prod.fst).Nodup →
    s.inData = header es n ++ payload → TableHolds w es →
    ∃ u t, exec .treeBuild w = .next u ∧ exec .decompress s = .next t ∧
      ∀ (syms : List Symbol) (cs : List BitString) (left : BitString),
        syms.length < n.toNat → CodesAre u syms cs → streamBits payload = cs.flatten ++ left →
        (∀ b c, u.codes.lookup b = some c → ¬ c <+: left) →
        t = failed 2 { s with
          out := s.out ++ syms
          freq := t.freq
          present := t.present
          symCount := n
          arena := u.arena
          root := u.root
          rootValid := u.rootValid
          treeBuilt := true
          s2c := t.s2c
          s2cValid := false
          c2s := t.c2s
          c2sValid := true
          rptOrig := t.rptOrig
          rptPacked := t.rptPacked
          rptHdr := BitVec.ofNat 64 (16 + 9 * es.length)
          inPtr := t.inPtr } ∧
        TableHolds t es ∧ t.rptOrig.toNat = syms.length ∧ t.rptPacked.toNat = payload.length ∧
        t.inPtr.toNat = s.inData.length) ∧
  (∀ s : State, s.inAvail = true → 1 ≤ s.inData.length → s.inData.length ≤ Config.maxStream →
    ∃ t container, exec .compress s = .next t ∧ t.out = s.out ++ container ∧
      ∀ (u : State) (k : Nat), u.inAvail = true → 1 ≤ k → k ≤ t.rptPacked.toNat →
        u.inData = container.take (container.length - k) →
        ∃ v m, exec .decompress u = .next v ∧ v.err = true ∧ v.errcode = 2 ∧ m < s.inData.length ∧
          v.out = u.out ++ s.inData.take m)

/-- R205: what COMPRESS and DECOMPRESS append, the table and the tree they leave depend only on the input bytes, not on
any earlier command; so do the reports, except after ERR_HEADER, which leaves them as they were (R204). -/
def Obligations.WholeOperationsDependOnTheInputAlone : Prop :=
  ∀ (s s' : State) (i : Instr), (i = .compress ∨ i = .decompress) →
    s.inAvail = true → s'.inAvail = true → s.inData = s'.inData → s.inData.length ≤ Config.maxStream →
    ∃ t t' appended, exec i s = .next t ∧ exec i s' = .next t' ∧
      t.out = s.out ++ appended ∧ t'.out = s'.out ++ appended ∧
      (∀ b, t.isKey b = t'.isKey b ∧ t.freqOf b = t'.freqOf b) ∧
      t.arena = t'.arena ∧ t.root = t'.root ∧ t.treeBuilt = t'.treeBuilt ∧ t.rootValid = t'.rootValid ∧
      ((t.rptOrig = t'.rptOrig ∧ t.rptPacked = t'.rptPacked ∧ t.rptHdr = t'.rptHdr ∧ t.symCount = t'.symCount) ∨
        (t = failed 6 t ∧ t'= failed 6 t'))
end

