-- ==== Sys2Proof/Laws/State.lean ====
section
/-! SUPPORT. What each named update of the state does to each field, so that no proof unfolds a record update. -/

namespace Sys2Proof.Machine

variable (s : State)

/-! ## Completion (60_exceptions.md R228) -/

@[simp] theorem State.complete_cmd : (s.complete).cmd = s.cmd := rfl
@[simp] theorem State.complete_busy : (s.complete).busy = false := rfl
@[simp] theorem State.complete_done : (s.complete).done = true := rfl
@[simp] theorem State.complete_err : (s.complete).err = s.err := rfl
@[simp] theorem State.complete_errcode : (s.complete).errcode = s.errcode := rfl
@[simp] theorem State.complete_treeBuilt : (s.complete).treeBuilt = s.treeBuilt := rfl
@[simp] theorem State.complete_rootValid : (s.complete).rootValid = s.rootValid := rfl
@[simp] theorem State.complete_s2cValid : (s.complete).s2cValid = s.s2cValid := rfl
@[simp] theorem State.complete_c2sValid : (s.complete).c2sValid = s.c2sValid := rfl
@[simp] theorem State.complete_inAvail : (s.complete).inAvail = s.inAvail := rfl
@[simp] theorem State.complete_symCount : (s.complete).symCount = s.symCount := rfl
@[simp] theorem State.complete_rptOrig : (s.complete).rptOrig = s.rptOrig := rfl
@[simp] theorem State.complete_rptPacked : (s.complete).rptPacked = s.rptPacked := rfl
@[simp] theorem State.complete_rptHdr : (s.complete).rptHdr = s.rptHdr := rfl
@[simp] theorem State.complete_lkLen : (s.complete).lkLen = s.lkLen := rfl
@[simp] theorem State.complete_lkHit : (s.complete).lkHit = s.lkHit := rfl
@[simp] theorem State.complete_lkSym : (s.complete).lkSym = s.lkSym := rfl
@[simp] theorem State.complete_codev : (s.complete).codev = s.codev := rfl
@[simp] theorem State.complete_gbResult : (s.complete).gbResult = s.gbResult := rfl
@[simp] theorem State.complete_present : (s.complete).present = s.present := rfl
@[simp] theorem State.complete_freq : (s.complete).freq = s.freq := rfl
@[simp] theorem State.complete_inData : (s.complete).inData = s.inData := rfl
@[simp] theorem State.complete_inPtr : (s.complete).inPtr = s.inPtr := rfl
@[simp] theorem State.complete_out : (s.complete).out = s.out := rfl
@[simp] theorem State.complete_arena : (s.complete).arena = s.arena := rfl
@[simp] theorem State.complete_root : (s.complete).root = s.root := rfl
@[simp] theorem State.complete_s2c : (s.complete).s2c = s.s2c := rfl
@[simp] theorem State.complete_c2s : (s.complete).c2s = s.c2s := rfl
@[simp] theorem State.complete_hostQueue : (s.complete).hostQueue = s.hostQueue := rfl
@[simp] theorem State.complete_hostReplies : (s.complete).hostReplies = s.hostReplies := rfl
@[simp] theorem State.complete_draws : (s.complete).draws = s.draws := rfl

/-! ## The error abort (60_exceptions.md R226) -/

@[simp] theorem State.raise_cmd (e : EngineError) : (s.raise e).cmd = s.cmd := rfl
@[simp] theorem State.raise_busy (e : EngineError) : (s.raise e).busy = false := rfl
@[simp] theorem State.raise_done (e : EngineError) : (s.raise e).done = true := rfl
@[simp] theorem State.raise_err (e : EngineError) : (s.raise e).err = true := rfl
@[simp] theorem State.raise_errcode (e : EngineError) : (s.raise e).errcode = errorCode e := rfl
@[simp] theorem State.raise_treeBuilt (e : EngineError) : (s.raise e).treeBuilt = s.treeBuilt := rfl
@[simp] theorem State.raise_rootValid (e : EngineError) : (s.raise e).rootValid = s.rootValid := rfl
@[simp] theorem State.raise_s2cValid (e : EngineError) : (s.raise e).s2cValid = s.s2cValid := rfl
@[simp] theorem State.raise_c2sValid (e : EngineError) : (s.raise e).c2sValid = s.c2sValid := rfl
@[simp] theorem State.raise_inAvail (e : EngineError) : (s.raise e).inAvail = s.inAvail := rfl
@[simp] theorem State.raise_symCount (e : EngineError) : (s.raise e).symCount = s.symCount := rfl
@[simp] theorem State.raise_rptOrig (e : EngineError) : (s.raise e).rptOrig = s.rptOrig := rfl
@[simp] theorem State.raise_rptPacked (e : EngineError) : (s.raise e).rptPacked = s.rptPacked := rfl
@[simp] theorem State.raise_rptHdr (e : EngineError) : (s.raise e).rptHdr = s.rptHdr := rfl
@[simp] theorem State.raise_lkLen (e : EngineError) : (s.raise e).lkLen = s.lkLen := rfl
@[simp] theorem State.raise_lkHit (e : EngineError) : (s.raise e).lkHit = s.lkHit := rfl
@[simp] theorem State.raise_lkSym (e : EngineError) : (s.raise e).lkSym = s.lkSym := rfl
@[simp] theorem State.raise_codev (e : EngineError) : (s.raise e).codev = s.codev := rfl
@[simp] theorem State.raise_gbResult (e : EngineError) : (s.raise e).gbResult = s.gbResult := rfl
@[simp] theorem State.raise_present (e : EngineError) : (s.raise e).present = s.present := rfl
@[simp] theorem State.raise_freq (e : EngineError) : (s.raise e).freq = s.freq := rfl
@[simp] theorem State.raise_inData (e : EngineError) : (s.raise e).inData = s.inData := rfl
@[simp] theorem State.raise_inPtr (e : EngineError) : (s.raise e).inPtr = s.inPtr := rfl
@[simp] theorem State.raise_out (e : EngineError) : (s.raise e).out = s.out := rfl
@[simp] theorem State.raise_arena (e : EngineError) : (s.raise e).arena = s.arena := rfl
@[simp] theorem State.raise_root (e : EngineError) : (s.raise e).root = s.root := rfl
@[simp] theorem State.raise_s2c (e : EngineError) : (s.raise e).s2c = s.s2c := rfl
@[simp] theorem State.raise_c2s (e : EngineError) : (s.raise e).c2s = s.c2s := rfl
@[simp] theorem State.raise_hostQueue (e : EngineError) : (s.raise e).hostQueue = s.hostQueue := rfl
@[simp] theorem State.raise_hostReplies (e : EngineError) : (s.raise e).hostReplies = s.hostReplies := rfl
@[simp] theorem State.raise_draws (e : EngineError) : (s.raise e).draws = s.draws := rfl

/-! ## Acceptance of a CMD write (20_memory.md R73) -/

@[simp] theorem State.acceptCommand_cmd (v : Word) : (s.acceptCommand v).cmd = v := rfl
@[simp] theorem State.acceptCommand_busy (v : Word) : (s.acceptCommand v).busy = true := rfl
@[simp] theorem State.acceptCommand_done (v : Word) : (s.acceptCommand v).done = false := rfl
@[simp] theorem State.acceptCommand_err (v : Word) : (s.acceptCommand v).err = false := rfl
@[simp] theorem State.acceptCommand_errcode (v : Word) : (s.acceptCommand v).errcode = 0 := rfl
@[simp] theorem State.acceptCommand_treeBuilt (v : Word) : (s.acceptCommand v).treeBuilt = s.treeBuilt := rfl
@[simp] theorem State.acceptCommand_rootValid (v : Word) : (s.acceptCommand v).rootValid = s.rootValid := rfl
@[simp] theorem State.acceptCommand_s2cValid (v : Word) : (s.acceptCommand v).s2cValid = s.s2cValid := rfl
@[simp] theorem State.acceptCommand_c2sValid (v : Word) : (s.acceptCommand v).c2sValid = s.c2sValid := rfl
@[simp] theorem State.acceptCommand_inAvail (v : Word) : (s.acceptCommand v).inAvail = s.inAvail := rfl
@[simp] theorem State.acceptCommand_symCount (v : Word) : (s.acceptCommand v).symCount = s.symCount := rfl
@[simp] theorem State.acceptCommand_rptOrig (v : Word) : (s.acceptCommand v).rptOrig = s.rptOrig := rfl
@[simp] theorem State.acceptCommand_rptPacked (v : Word) : (s.acceptCommand v).rptPacked = s.rptPacked := rfl
@[simp] theorem State.acceptCommand_rptHdr (v : Word) : (s.acceptCommand v).rptHdr = s.rptHdr := rfl
@[simp] theorem State.acceptCommand_lkLen (v : Word) : (s.acceptCommand v).lkLen = s.lkLen := rfl
@[simp] theorem State.acceptCommand_lkHit (v : Word) : (s.acceptCommand v).lkHit = s.lkHit := rfl
@[simp] theorem State.acceptCommand_lkSym (v : Word) : (s.acceptCommand v).lkSym = s.lkSym := rfl
@[simp] theorem State.acceptCommand_codev (v : Word) : (s.acceptCommand v).codev = s.codev := rfl
@[simp] theorem State.acceptCommand_gbResult (v : Word) : (s.acceptCommand v).gbResult = s.gbResult := rfl
@[simp] theorem State.acceptCommand_present (v : Word) : (s.acceptCommand v).present = s.present := rfl
@[simp] theorem State.acceptCommand_freq (v : Word) : (s.acceptCommand v).freq = s.freq := rfl
@[simp] theorem State.acceptCommand_inData (v : Word) : (s.acceptCommand v).inData = s.inData := rfl
@[simp] theorem State.acceptCommand_inPtr (v : Word) : (s.acceptCommand v).inPtr = s.inPtr := rfl
@[simp] theorem State.acceptCommand_out (v : Word) : (s.acceptCommand v).out = s.out := rfl
@[simp] theorem State.acceptCommand_arena (v : Word) : (s.acceptCommand v).arena = s.arena := rfl
@[simp] theorem State.acceptCommand_root (v : Word) : (s.acceptCommand v).root = s.root := rfl
@[simp] theorem State.acceptCommand_s2c (v : Word) : (s.acceptCommand v).s2c = s.s2c := rfl
@[simp] theorem State.acceptCommand_c2s (v : Word) : (s.acceptCommand v).c2s = s.c2s := rfl
@[simp] theorem State.acceptCommand_hostQueue (v : Word) : (s.acceptCommand v).hostQueue = s.hostQueue := rfl
@[simp] theorem State.acceptCommand_hostReplies (v : Word) : (s.acceptCommand v).hostReplies = s.hostReplies := rfl
@[simp] theorem State.acceptCommand_draws (v : Word) : (s.acceptCommand v).draws = s.draws := rfl

/-! ## Reading k bytes (20_memory.md R77) -/

@[simp] theorem State.consume_cmd (k : Nat) : (s.consume k).cmd = s.cmd := rfl
@[simp] theorem State.consume_busy (k : Nat) : (s.consume k).busy = s.busy := rfl
@[simp] theorem State.consume_done (k : Nat) : (s.consume k).done = s.done := rfl
@[simp] theorem State.consume_err (k : Nat) : (s.consume k).err = s.err := rfl
@[simp] theorem State.consume_errcode (k : Nat) : (s.consume k).errcode = s.errcode := rfl
@[simp] theorem State.consume_treeBuilt (k : Nat) : (s.consume k).treeBuilt = s.treeBuilt := rfl
@[simp] theorem State.consume_rootValid (k : Nat) : (s.consume k).rootValid = s.rootValid := rfl
@[simp] theorem State.consume_s2cValid (k : Nat) : (s.consume k).s2cValid = s.s2cValid := rfl
@[simp] theorem State.consume_c2sValid (k : Nat) : (s.consume k).c2sValid = s.c2sValid := rfl
@[simp] theorem State.consume_inAvail (k : Nat) : (s.consume k).inAvail = s.inAvail := rfl
@[simp] theorem State.consume_symCount (k : Nat) : (s.consume k).symCount = s.symCount := rfl
@[simp] theorem State.consume_rptOrig (k : Nat) : (s.consume k).rptOrig = s.rptOrig := rfl
@[simp] theorem State.consume_rptPacked (k : Nat) : (s.consume k).rptPacked = s.rptPacked := rfl
@[simp] theorem State.consume_rptHdr (k : Nat) : (s.consume k).rptHdr = s.rptHdr := rfl
@[simp] theorem State.consume_lkLen (k : Nat) : (s.consume k).lkLen = s.lkLen := rfl
@[simp] theorem State.consume_lkHit (k : Nat) : (s.consume k).lkHit = s.lkHit := rfl
@[simp] theorem State.consume_lkSym (k : Nat) : (s.consume k).lkSym = s.lkSym := rfl
@[simp] theorem State.consume_codev (k : Nat) : (s.consume k).codev = s.codev := rfl
@[simp] theorem State.consume_gbResult (k : Nat) : (s.consume k).gbResult = s.gbResult := rfl
@[simp] theorem State.consume_present (k : Nat) : (s.consume k).present = s.present := rfl
@[simp] theorem State.consume_freq (k : Nat) : (s.consume k).freq = s.freq := rfl
@[simp] theorem State.consume_inData (k : Nat) : (s.consume k).inData = s.inData := rfl
@[simp] theorem State.consume_inPtr (k : Nat) : (s.consume k).inPtr = BitVec.ofNat 64 (s.inPtr.toNat + k) := rfl
@[simp] theorem State.consume_out (k : Nat) : (s.consume k).out = s.out := rfl
@[simp] theorem State.consume_arena (k : Nat) : (s.consume k).arena = s.arena := rfl
@[simp] theorem State.consume_root (k : Nat) : (s.consume k).root = s.root := rfl
@[simp] theorem State.consume_s2c (k : Nat) : (s.consume k).s2c = s.s2c := rfl
@[simp] theorem State.consume_c2s (k : Nat) : (s.consume k).c2s = s.c2s := rfl
@[simp] theorem State.consume_hostQueue (k : Nat) : (s.consume k).hostQueue = s.hostQueue := rfl
@[simp] theorem State.consume_hostReplies (k : Nat) : (s.consume k).hostReplies = s.hostReplies := rfl
@[simp] theorem State.consume_draws (k : Nat) : (s.consume k).draws = s.draws := rfl

/-! ## in_ptr <- 0 (40_freq_table.md R112) -/

@[simp] theorem State.rewind_cmd : (s.rewind).cmd = s.cmd := rfl
@[simp] theorem State.rewind_busy : (s.rewind).busy = s.busy := rfl
@[simp] theorem State.rewind_done : (s.rewind).done = s.done := rfl
@[simp] theorem State.rewind_err : (s.rewind).err = s.err := rfl
@[simp] theorem State.rewind_errcode : (s.rewind).errcode = s.errcode := rfl
@[simp] theorem State.rewind_treeBuilt : (s.rewind).treeBuilt = s.treeBuilt := rfl
@[simp] theorem State.rewind_rootValid : (s.rewind).rootValid = s.rootValid := rfl
@[simp] theorem State.rewind_s2cValid : (s.rewind).s2cValid = s.s2cValid := rfl
@[simp] theorem State.rewind_c2sValid : (s.rewind).c2sValid = s.c2sValid := rfl
@[simp] theorem State.rewind_inAvail : (s.rewind).inAvail = s.inAvail := rfl
@[simp] theorem State.rewind_symCount : (s.rewind).symCount = s.symCount := rfl
@[simp] theorem State.rewind_rptOrig : (s.rewind).rptOrig = s.rptOrig := rfl
@[simp] theorem State.rewind_rptPacked : (s.rewind).rptPacked = s.rptPacked := rfl
@[simp] theorem State.rewind_rptHdr : (s.rewind).rptHdr = s.rptHdr := rfl
@[simp] theorem State.rewind_lkLen : (s.rewind).lkLen = s.lkLen := rfl
@[simp] theorem State.rewind_lkHit : (s.rewind).lkHit = s.lkHit := rfl
@[simp] theorem State.rewind_lkSym : (s.rewind).lkSym = s.lkSym := rfl
@[simp] theorem State.rewind_codev : (s.rewind).codev = s.codev := rfl
@[simp] theorem State.rewind_gbResult : (s.rewind).gbResult = s.gbResult := rfl
@[simp] theorem State.rewind_present : (s.rewind).present = s.present := rfl
@[simp] theorem State.rewind_freq : (s.rewind).freq = s.freq := rfl
@[simp] theorem State.rewind_inData : (s.rewind).inData = s.inData := rfl
@[simp] theorem State.rewind_inPtr : (s.rewind).inPtr = 0 := rfl
@[simp] theorem State.rewind_out : (s.rewind).out = s.out := rfl
@[simp] theorem State.rewind_arena : (s.rewind).arena = s.arena := rfl
@[simp] theorem State.rewind_root : (s.rewind).root = s.root := rfl
@[simp] theorem State.rewind_s2c : (s.rewind).s2c = s.s2c := rfl
@[simp] theorem State.rewind_c2s : (s.rewind).c2s = s.c2s := rfl
@[simp] theorem State.rewind_hostQueue : (s.rewind).hostQueue = s.hostQueue := rfl
@[simp] theorem State.rewind_hostReplies : (s.rewind).hostReplies = s.hostReplies := rfl
@[simp] theorem State.rewind_draws : (s.rewind).draws = s.draws := rfl

/-! ## OutWrite (20_memory.md R78) -/

@[simp] theorem State.outWrite_cmd (bytes : List Byte) : (s.outWrite bytes).cmd = s.cmd := rfl
@[simp] theorem State.outWrite_busy (bytes : List Byte) : (s.outWrite bytes).busy = s.busy := rfl
@[simp] theorem State.outWrite_done (bytes : List Byte) : (s.outWrite bytes).done = s.done := rfl
@[simp] theorem State.outWrite_err (bytes : List Byte) : (s.outWrite bytes).err = s.err := rfl
@[simp] theorem State.outWrite_errcode (bytes : List Byte) : (s.outWrite bytes).errcode = s.errcode := rfl
@[simp] theorem State.outWrite_treeBuilt (bytes : List Byte) : (s.outWrite bytes).treeBuilt = s.treeBuilt := rfl
@[simp] theorem State.outWrite_rootValid (bytes : List Byte) : (s.outWrite bytes).rootValid = s.rootValid := rfl
@[simp] theorem State.outWrite_s2cValid (bytes : List Byte) : (s.outWrite bytes).s2cValid = s.s2cValid := rfl
@[simp] theorem State.outWrite_c2sValid (bytes : List Byte) : (s.outWrite bytes).c2sValid = s.c2sValid := rfl
@[simp] theorem State.outWrite_inAvail (bytes : List Byte) : (s.outWrite bytes).inAvail = s.inAvail := rfl
@[simp] theorem State.outWrite_symCount (bytes : List Byte) : (s.outWrite bytes).symCount = s.symCount := rfl
@[simp] theorem State.outWrite_rptOrig (bytes : List Byte) : (s.outWrite bytes).rptOrig = s.rptOrig := rfl
@[simp] theorem State.outWrite_rptPacked (bytes : List Byte) : (s.outWrite bytes).rptPacked = s.rptPacked := rfl
@[simp] theorem State.outWrite_rptHdr (bytes : List Byte) : (s.outWrite bytes).rptHdr = s.rptHdr := rfl
@[simp] theorem State.outWrite_lkLen (bytes : List Byte) : (s.outWrite bytes).lkLen = s.lkLen := rfl
@[simp] theorem State.outWrite_lkHit (bytes : List Byte) : (s.outWrite bytes).lkHit = s.lkHit := rfl
@[simp] theorem State.outWrite_lkSym (bytes : List Byte) : (s.outWrite bytes).lkSym = s.lkSym := rfl
@[simp] theorem State.outWrite_codev (bytes : List Byte) : (s.outWrite bytes).codev = s.codev := rfl
@[simp] theorem State.outWrite_gbResult (bytes : List Byte) : (s.outWrite bytes).gbResult = s.gbResult := rfl
@[simp] theorem State.outWrite_present (bytes : List Byte) : (s.outWrite bytes).present = s.present := rfl
@[simp] theorem State.outWrite_freq (bytes : List Byte) : (s.outWrite bytes).freq = s.freq := rfl
@[simp] theorem State.outWrite_inData (bytes : List Byte) : (s.outWrite bytes).inData = s.inData := rfl
@[simp] theorem State.outWrite_inPtr (bytes : List Byte) : (s.outWrite bytes).inPtr = s.inPtr := rfl
@[simp] theorem State.outWrite_out (bytes : List Byte) : (s.outWrite bytes).out = s.out ++ bytes := rfl
@[simp] theorem State.outWrite_arena (bytes : List Byte) : (s.outWrite bytes).arena = s.arena := rfl
@[simp] theorem State.outWrite_root (bytes : List Byte) : (s.outWrite bytes).root = s.root := rfl
@[simp] theorem State.outWrite_s2c (bytes : List Byte) : (s.outWrite bytes).s2c = s.s2c := rfl
@[simp] theorem State.outWrite_c2s (bytes : List Byte) : (s.outWrite bytes).c2s = s.c2s := rfl
@[simp] theorem State.outWrite_hostQueue (bytes : List Byte) : (s.outWrite bytes).hostQueue = s.hostQueue := rfl
@[simp] theorem State.outWrite_hostReplies (bytes : List Byte) : (s.outWrite bytes).hostReplies = s.hostReplies := rfl
@[simp] theorem State.outWrite_draws (bytes : List Byte) : (s.outWrite bytes).draws = s.draws := rfl

/-! ## The empty table (10_state.md R36) -/

@[simp] theorem State.clearTable_cmd : (s.clearTable).cmd = s.cmd := rfl
@[simp] theorem State.clearTable_busy : (s.clearTable).busy = s.busy := rfl
@[simp] theorem State.clearTable_done : (s.clearTable).done = s.done := rfl
@[simp] theorem State.clearTable_err : (s.clearTable).err = s.err := rfl
@[simp] theorem State.clearTable_errcode : (s.clearTable).errcode = s.errcode := rfl
@[simp] theorem State.clearTable_treeBuilt : (s.clearTable).treeBuilt = s.treeBuilt := rfl
@[simp] theorem State.clearTable_rootValid : (s.clearTable).rootValid = s.rootValid := rfl
@[simp] theorem State.clearTable_s2cValid : (s.clearTable).s2cValid = s.s2cValid := rfl
@[simp] theorem State.clearTable_c2sValid : (s.clearTable).c2sValid = s.c2sValid := rfl
@[simp] theorem State.clearTable_inAvail : (s.clearTable).inAvail = s.inAvail := rfl
@[simp] theorem State.clearTable_symCount : (s.clearTable).symCount = s.symCount := rfl
@[simp] theorem State.clearTable_rptOrig : (s.clearTable).rptOrig = s.rptOrig := rfl
@[simp] theorem State.clearTable_rptPacked : (s.clearTable).rptPacked = s.rptPacked := rfl
@[simp] theorem State.clearTable_rptHdr : (s.clearTable).rptHdr = s.rptHdr := rfl
@[simp] theorem State.clearTable_lkLen : (s.clearTable).lkLen = s.lkLen := rfl
@[simp] theorem State.clearTable_lkHit : (s.clearTable).lkHit = s.lkHit := rfl
@[simp] theorem State.clearTable_lkSym : (s.clearTable).lkSym = s.lkSym := rfl
@[simp] theorem State.clearTable_codev : (s.clearTable).codev = s.codev := rfl
@[simp] theorem State.clearTable_gbResult : (s.clearTable).gbResult = s.gbResult := rfl
@[simp] theorem State.clearTable_present : (s.clearTable).present = 0 := rfl
@[simp] theorem State.clearTable_freq : (s.clearTable).freq = Vector.replicate 256 0 := rfl
@[simp] theorem State.clearTable_inData : (s.clearTable).inData = s.inData := rfl
@[simp] theorem State.clearTable_inPtr : (s.clearTable).inPtr = s.inPtr := rfl
@[simp] theorem State.clearTable_out : (s.clearTable).out = s.out := rfl
@[simp] theorem State.clearTable_arena : (s.clearTable).arena = s.arena := rfl
@[simp] theorem State.clearTable_root : (s.clearTable).root = s.root := rfl
@[simp] theorem State.clearTable_s2c : (s.clearTable).s2c = s.s2c := rfl
@[simp] theorem State.clearTable_c2s : (s.clearTable).c2s = s.c2s := rfl
@[simp] theorem State.clearTable_hostQueue : (s.clearTable).hostQueue = s.hostQueue := rfl
@[simp] theorem State.clearTable_hostReplies : (s.clearTable).hostReplies = s.hostReplies := rfl
@[simp] theorem State.clearTable_draws : (s.clearTable).draws = s.draws := rfl

/-! ## Setting a table entry (10_state.md R30, R31) -/

@[simp] theorem State.setEntry_cmd (b : Symbol) (f : Word) : (s.setEntry b f).cmd = s.cmd := rfl
@[simp] theorem State.setEntry_busy (b : Symbol) (f : Word) : (s.setEntry b f).busy = s.busy := rfl
@[simp] theorem State.setEntry_done (b : Symbol) (f : Word) : (s.setEntry b f).done = s.done := rfl
@[simp] theorem State.setEntry_err (b : Symbol) (f : Word) : (s.setEntry b f).err = s.err := rfl
@[simp] theorem State.setEntry_errcode (b : Symbol) (f : Word) : (s.setEntry b f).errcode = s.errcode := rfl
@[simp] theorem State.setEntry_treeBuilt (b : Symbol) (f : Word) : (s.setEntry b f).treeBuilt = s.treeBuilt := rfl
@[simp] theorem State.setEntry_rootValid (b : Symbol) (f : Word) : (s.setEntry b f).rootValid = s.rootValid := rfl
@[simp] theorem State.setEntry_s2cValid (b : Symbol) (f : Word) : (s.setEntry b f).s2cValid = s.s2cValid := rfl
@[simp] theorem State.setEntry_c2sValid (b : Symbol) (f : Word) : (s.setEntry b f).c2sValid = s.c2sValid := rfl
@[simp] theorem State.setEntry_inAvail (b : Symbol) (f : Word) : (s.setEntry b f).inAvail = s.inAvail := rfl
@[simp] theorem State.setEntry_symCount (b : Symbol) (f : Word) : (s.setEntry b f).symCount = s.symCount := rfl
@[simp] theorem State.setEntry_rptOrig (b : Symbol) (f : Word) : (s.setEntry b f).rptOrig = s.rptOrig := rfl
@[simp] theorem State.setEntry_rptPacked (b : Symbol) (f : Word) : (s.setEntry b f).rptPacked = s.rptPacked := rfl
@[simp] theorem State.setEntry_rptHdr (b : Symbol) (f : Word) : (s.setEntry b f).rptHdr = s.rptHdr := rfl
@[simp] theorem State.setEntry_lkLen (b : Symbol) (f : Word) : (s.setEntry b f).lkLen = s.lkLen := rfl
@[simp] theorem State.setEntry_lkHit (b : Symbol) (f : Word) : (s.setEntry b f).lkHit = s.lkHit := rfl
@[simp] theorem State.setEntry_lkSym (b : Symbol) (f : Word) : (s.setEntry b f).lkSym = s.lkSym := rfl
@[simp] theorem State.setEntry_codev (b : Symbol) (f : Word) : (s.setEntry b f).codev = s.codev := rfl
@[simp] theorem State.setEntry_gbResult (b : Symbol) (f : Word) : (s.setEntry b f).gbResult = s.gbResult := rfl
@[simp] theorem State.setEntry_present (b : Symbol) (f : Word) : (s.setEntry b f).present = s.present ||| (1#256 <<< b.toNat) := rfl
@[simp] theorem State.setEntry_freq (b : Symbol) (f : Word) : (s.setEntry b f).freq = s.freq.set b.toNat f b.isLt := rfl
@[simp] theorem State.setEntry_inData (b : Symbol) (f : Word) : (s.setEntry b f).inData = s.inData := rfl
@[simp] theorem State.setEntry_inPtr (b : Symbol) (f : Word) : (s.setEntry b f).inPtr = s.inPtr := rfl
@[simp] theorem State.setEntry_out (b : Symbol) (f : Word) : (s.setEntry b f).out = s.out := rfl
@[simp] theorem State.setEntry_arena (b : Symbol) (f : Word) : (s.setEntry b f).arena = s.arena := rfl
@[simp] theorem State.setEntry_root (b : Symbol) (f : Word) : (s.setEntry b f).root = s.root := rfl
@[simp] theorem State.setEntry_s2c (b : Symbol) (f : Word) : (s.setEntry b f).s2c = s.s2c := rfl
@[simp] theorem State.setEntry_c2s (b : Symbol) (f : Word) : (s.setEntry b f).c2s = s.c2s := rfl
@[simp] theorem State.setEntry_hostQueue (b : Symbol) (f : Word) : (s.setEntry b f).hostQueue = s.hostQueue := rfl
@[simp] theorem State.setEntry_hostReplies (b : Symbol) (f : Word) : (s.setEntry b f).hostReplies = s.hostReplies := rfl
@[simp] theorem State.setEntry_draws (b : Symbol) (f : Word) : (s.setEntry b f).draws = s.draws := rfl

/-! ## Invalidate() (45_orchestration.md R200) -/

@[simp] theorem State.invalidate_cmd : (s.invalidate).cmd = s.cmd := rfl
@[simp] theorem State.invalidate_busy : (s.invalidate).busy = s.busy := rfl
@[simp] theorem State.invalidate_done : (s.invalidate).done = s.done := rfl
@[simp] theorem State.invalidate_err : (s.invalidate).err = s.err := rfl
@[simp] theorem State.invalidate_errcode : (s.invalidate).errcode = s.errcode := rfl
@[simp] theorem State.invalidate_treeBuilt : (s.invalidate).treeBuilt = false := rfl
@[simp] theorem State.invalidate_rootValid : (s.invalidate).rootValid = false := rfl
@[simp] theorem State.invalidate_s2cValid : (s.invalidate).s2cValid = false := rfl
@[simp] theorem State.invalidate_c2sValid : (s.invalidate).c2sValid = false := rfl
@[simp] theorem State.invalidate_inAvail : (s.invalidate).inAvail = s.inAvail := rfl
@[simp] theorem State.invalidate_symCount : (s.invalidate).symCount = s.symCount := rfl
@[simp] theorem State.invalidate_rptOrig : (s.invalidate).rptOrig = s.rptOrig := rfl
@[simp] theorem State.invalidate_rptPacked : (s.invalidate).rptPacked = s.rptPacked := rfl
@[simp] theorem State.invalidate_rptHdr : (s.invalidate).rptHdr = s.rptHdr := rfl
@[simp] theorem State.invalidate_lkLen : (s.invalidate).lkLen = s.lkLen := rfl
@[simp] theorem State.invalidate_lkHit : (s.invalidate).lkHit = s.lkHit := rfl
@[simp] theorem State.invalidate_lkSym : (s.invalidate).lkSym = s.lkSym := rfl
@[simp] theorem State.invalidate_codev : (s.invalidate).codev = s.codev := rfl
@[simp] theorem State.invalidate_gbResult : (s.invalidate).gbResult = s.gbResult := rfl
@[simp] theorem State.invalidate_present : (s.invalidate).present = s.present := rfl
@[simp] theorem State.invalidate_freq : (s.invalidate).freq = s.freq := rfl
@[simp] theorem State.invalidate_inData : (s.invalidate).inData = s.inData := rfl
@[simp] theorem State.invalidate_inPtr : (s.invalidate).inPtr = s.inPtr := rfl
@[simp] theorem State.invalidate_out : (s.invalidate).out = s.out := rfl
@[simp] theorem State.invalidate_arena : (s.invalidate).arena = [] := rfl
@[simp] theorem State.invalidate_root : (s.invalidate).root = none := rfl
@[simp] theorem State.invalidate_s2c : (s.invalidate).s2c = s.s2c := rfl
@[simp] theorem State.invalidate_c2s : (s.invalidate).c2s = s.c2s := rfl
@[simp] theorem State.invalidate_hostQueue : (s.invalidate).hostQueue = s.hostQueue := rfl
@[simp] theorem State.invalidate_hostReplies : (s.invalidate).hostReplies = s.hostReplies := rfl
@[simp] theorem State.invalidate_draws : (s.invalidate).draws = s.draws := rfl

/-! ## An answer to the host (20_memory.md R76) -/

@[simp] theorem State.reply_cmd (r : HostReply) : (s.reply r).cmd = s.cmd := rfl
@[simp] theorem State.reply_busy (r : HostReply) : (s.reply r).busy = s.busy := rfl
@[simp] theorem State.reply_done (r : HostReply) : (s.reply r).done = s.done := rfl
@[simp] theorem State.reply_err (r : HostReply) : (s.reply r).err = s.err := rfl
@[simp] theorem State.reply_errcode (r : HostReply) : (s.reply r).errcode = s.errcode := rfl
@[simp] theorem State.reply_treeBuilt (r : HostReply) : (s.reply r).treeBuilt = s.treeBuilt := rfl
@[simp] theorem State.reply_rootValid (r : HostReply) : (s.reply r).rootValid = s.rootValid := rfl
@[simp] theorem State.reply_s2cValid (r : HostReply) : (s.reply r).s2cValid = s.s2cValid := rfl
@[simp] theorem State.reply_c2sValid (r : HostReply) : (s.reply r).c2sValid = s.c2sValid := rfl
@[simp] theorem State.reply_inAvail (r : HostReply) : (s.reply r).inAvail = s.inAvail := rfl
@[simp] theorem State.reply_symCount (r : HostReply) : (s.reply r).symCount = s.symCount := rfl
@[simp] theorem State.reply_rptOrig (r : HostReply) : (s.reply r).rptOrig = s.rptOrig := rfl
@[simp] theorem State.reply_rptPacked (r : HostReply) : (s.reply r).rptPacked = s.rptPacked := rfl
@[simp] theorem State.reply_rptHdr (r : HostReply) : (s.reply r).rptHdr = s.rptHdr := rfl
@[simp] theorem State.reply_lkLen (r : HostReply) : (s.reply r).lkLen = s.lkLen := rfl
@[simp] theorem State.reply_lkHit (r : HostReply) : (s.reply r).lkHit = s.lkHit := rfl
@[simp] theorem State.reply_lkSym (r : HostReply) : (s.reply r).lkSym = s.lkSym := rfl
@[simp] theorem State.reply_codev (r : HostReply) : (s.reply r).codev = s.codev := rfl
@[simp] theorem State.reply_gbResult (r : HostReply) : (s.reply r).gbResult = s.gbResult := rfl
@[simp] theorem State.reply_present (r : HostReply) : (s.reply r).present = s.present := rfl
@[simp] theorem State.reply_freq (r : HostReply) : (s.reply r).freq = s.freq := rfl
@[simp] theorem State.reply_inData (r : HostReply) : (s.reply r).inData = s.inData := rfl
@[simp] theorem State.reply_inPtr (r : HostReply) : (s.reply r).inPtr = s.inPtr := rfl
@[simp] theorem State.reply_out (r : HostReply) : (s.reply r).out = s.out := rfl
@[simp] theorem State.reply_arena (r : HostReply) : (s.reply r).arena = s.arena := rfl
@[simp] theorem State.reply_root (r : HostReply) : (s.reply r).root = s.root := rfl
@[simp] theorem State.reply_s2c (r : HostReply) : (s.reply r).s2c = s.s2c := rfl
@[simp] theorem State.reply_c2s (r : HostReply) : (s.reply r).c2s = s.c2s := rfl
@[simp] theorem State.reply_hostQueue (r : HostReply) : (s.reply r).hostQueue = s.hostQueue := rfl
@[simp] theorem State.reply_hostReplies (r : HostReply) : (s.reply r).hostReplies = s.hostReplies ++ [r] := rfl
@[simp] theorem State.reply_draws (r : HostReply) : (s.reply r).draws = s.draws := rfl

/-! ## A placed command (log 4) -/

@[simp] theorem State.placeCommand_cmd (v : Word) : (s.placeCommand v).cmd = v := rfl
@[simp] theorem State.placeCommand_busy (v : Word) : (s.placeCommand v).busy = true := rfl
@[simp] theorem State.placeCommand_done (v : Word) : (s.placeCommand v).done = false := rfl
@[simp] theorem State.placeCommand_err (v : Word) : (s.placeCommand v).err = false := rfl
@[simp] theorem State.placeCommand_errcode (v : Word) : (s.placeCommand v).errcode = 0 := rfl
@[simp] theorem State.placeCommand_treeBuilt (v : Word) : (s.placeCommand v).treeBuilt = s.treeBuilt := rfl
@[simp] theorem State.placeCommand_rootValid (v : Word) : (s.placeCommand v).rootValid = s.rootValid := rfl
@[simp] theorem State.placeCommand_s2cValid (v : Word) : (s.placeCommand v).s2cValid = s.s2cValid := rfl
@[simp] theorem State.placeCommand_c2sValid (v : Word) : (s.placeCommand v).c2sValid = s.c2sValid := rfl
@[simp] theorem State.placeCommand_inAvail (v : Word) : (s.placeCommand v).inAvail = s.inAvail := rfl
@[simp] theorem State.placeCommand_symCount (v : Word) : (s.placeCommand v).symCount = s.symCount := rfl
@[simp] theorem State.placeCommand_rptOrig (v : Word) : (s.placeCommand v).rptOrig = s.rptOrig := rfl
@[simp] theorem State.placeCommand_rptPacked (v : Word) : (s.placeCommand v).rptPacked = s.rptPacked := rfl
@[simp] theorem State.placeCommand_rptHdr (v : Word) : (s.placeCommand v).rptHdr = s.rptHdr := rfl
@[simp] theorem State.placeCommand_lkLen (v : Word) : (s.placeCommand v).lkLen = s.lkLen := rfl
@[simp] theorem State.placeCommand_lkHit (v : Word) : (s.placeCommand v).lkHit = s.lkHit := rfl
@[simp] theorem State.placeCommand_lkSym (v : Word) : (s.placeCommand v).lkSym = s.lkSym := rfl
@[simp] theorem State.placeCommand_codev (v : Word) : (s.placeCommand v).codev = s.codev := rfl
@[simp] theorem State.placeCommand_gbResult (v : Word) : (s.placeCommand v).gbResult = s.gbResult := rfl
@[simp] theorem State.placeCommand_present (v : Word) : (s.placeCommand v).present = s.present := rfl
@[simp] theorem State.placeCommand_freq (v : Word) : (s.placeCommand v).freq = s.freq := rfl
@[simp] theorem State.placeCommand_inData (v : Word) : (s.placeCommand v).inData = s.inData := rfl
@[simp] theorem State.placeCommand_inPtr (v : Word) : (s.placeCommand v).inPtr = s.inPtr := rfl
@[simp] theorem State.placeCommand_out (v : Word) : (s.placeCommand v).out = s.out := rfl
@[simp] theorem State.placeCommand_arena (v : Word) : (s.placeCommand v).arena = s.arena := rfl
@[simp] theorem State.placeCommand_root (v : Word) : (s.placeCommand v).root = s.root := rfl
@[simp] theorem State.placeCommand_s2c (v : Word) : (s.placeCommand v).s2c = s.s2c := rfl
@[simp] theorem State.placeCommand_c2s (v : Word) : (s.placeCommand v).c2s = s.c2s := rfl
@[simp] theorem State.placeCommand_hostQueue (v : Word) : (s.placeCommand v).hostQueue = holdHost s.hostQueue := rfl
@[simp] theorem State.placeCommand_hostReplies (v : Word) : (s.placeCommand v).hostReplies = s.hostReplies := rfl
@[simp] theorem State.placeCommand_draws (v : Word) : (s.placeCommand v).draws = s.draws := rfl

/-! ## The lazy fill `ensureS2c` (41_tree.md R134) -/

@[simp] theorem State.ensureS2c_cmd : (s.ensureS2c).cmd = s.cmd := by
  unfold State.ensureS2c; split <;> rfl
@[simp] theorem State.ensureS2c_busy : (s.ensureS2c).busy = s.busy := by
  unfold State.ensureS2c; split <;> rfl
@[simp] theorem State.ensureS2c_done : (s.ensureS2c).done = s.done := by
  unfold State.ensureS2c; split <;> rfl
@[simp] theorem State.ensureS2c_err : (s.ensureS2c).err = s.err := by
  unfold State.ensureS2c; split <;> rfl
@[simp] theorem State.ensureS2c_errcode : (s.ensureS2c).errcode = s.errcode := by
  unfold State.ensureS2c; split <;> rfl
@[simp] theorem State.ensureS2c_treeBuilt : (s.ensureS2c).treeBuilt = s.treeBuilt := by
  unfold State.ensureS2c; split <;> rfl
@[simp] theorem State.ensureS2c_rootValid : (s.ensureS2c).rootValid = s.rootValid := by
  unfold State.ensureS2c; split <;> rfl
@[simp] theorem State.ensureS2c_s2cValid : (s.ensureS2c).s2cValid = true := by
  unfold State.ensureS2c; split <;> simp_all
@[simp] theorem State.ensureS2c_c2sValid : (s.ensureS2c).c2sValid = s.c2sValid := by
  unfold State.ensureS2c; split <;> rfl
@[simp] theorem State.ensureS2c_inAvail : (s.ensureS2c).inAvail = s.inAvail := by
  unfold State.ensureS2c; split <;> rfl
@[simp] theorem State.ensureS2c_symCount : (s.ensureS2c).symCount = s.symCount := by
  unfold State.ensureS2c; split <;> rfl
@[simp] theorem State.ensureS2c_rptOrig : (s.ensureS2c).rptOrig = s.rptOrig := by
  unfold State.ensureS2c; split <;> rfl
@[simp] theorem State.ensureS2c_rptPacked : (s.ensureS2c).rptPacked = s.rptPacked := by
  unfold State.ensureS2c; split <;> rfl
@[simp] theorem State.ensureS2c_rptHdr : (s.ensureS2c).rptHdr = s.rptHdr := by
  unfold State.ensureS2c; split <;> rfl
@[simp] theorem State.ensureS2c_lkLen : (s.ensureS2c).lkLen = s.lkLen := by
  unfold State.ensureS2c; split <;> rfl
@[simp] theorem State.ensureS2c_lkHit : (s.ensureS2c).lkHit = s.lkHit := by
  unfold State.ensureS2c; split <;> rfl
@[simp] theorem State.ensureS2c_lkSym : (s.ensureS2c).lkSym = s.lkSym := by
  unfold State.ensureS2c; split <;> rfl
@[simp] theorem State.ensureS2c_codev : (s.ensureS2c).codev = s.codev := by
  unfold State.ensureS2c; split <;> rfl
@[simp] theorem State.ensureS2c_gbResult : (s.ensureS2c).gbResult = s.gbResult := by
  unfold State.ensureS2c; split <;> rfl
@[simp] theorem State.ensureS2c_present : (s.ensureS2c).present = s.present := by
  unfold State.ensureS2c; split <;> rfl
@[simp] theorem State.ensureS2c_freq : (s.ensureS2c).freq = s.freq := by
  unfold State.ensureS2c; split <;> rfl
@[simp] theorem State.ensureS2c_inData : (s.ensureS2c).inData = s.inData := by
  unfold State.ensureS2c; split <;> rfl
@[simp] theorem State.ensureS2c_inPtr : (s.ensureS2c).inPtr = s.inPtr := by
  unfold State.ensureS2c; split <;> rfl
@[simp] theorem State.ensureS2c_out : (s.ensureS2c).out = s.out := by
  unfold State.ensureS2c; split <;> rfl
@[simp] theorem State.ensureS2c_arena : (s.ensureS2c).arena = s.arena := by
  unfold State.ensureS2c; split <;> rfl
@[simp] theorem State.ensureS2c_root : (s.ensureS2c).root = s.root := by
  unfold State.ensureS2c; split <;> rfl
theorem State.ensureS2c_s2c : (s.ensureS2c).s2c = if s.s2cValid then s.s2c else s2cTable s.codes := by
  unfold State.ensureS2c; split <;> rfl
@[simp] theorem State.ensureS2c_c2s : (s.ensureS2c).c2s = s.c2s := by
  unfold State.ensureS2c; split <;> rfl
@[simp] theorem State.ensureS2c_hostQueue : (s.ensureS2c).hostQueue = s.hostQueue := by
  unfold State.ensureS2c; split <;> rfl
@[simp] theorem State.ensureS2c_hostReplies : (s.ensureS2c).hostReplies = s.hostReplies := by
  unfold State.ensureS2c; split <;> rfl
@[simp] theorem State.ensureS2c_draws : (s.ensureS2c).draws = s.draws := by
  unfold State.ensureS2c; split <;> rfl

/-! ## The lazy fill `ensureC2s` (41_tree.md R134) -/

@[simp] theorem State.ensureC2s_cmd : (s.ensureC2s).cmd = s.cmd := by
  unfold State.ensureC2s; split <;> rfl
@[simp] theorem State.ensureC2s_busy : (s.ensureC2s).busy = s.busy := by
  unfold State.ensureC2s; split <;> rfl
@[simp] theorem State.ensureC2s_done : (s.ensureC2s).done = s.done := by
  unfold State.ensureC2s; split <;> rfl
@[simp] theorem State.ensureC2s_err : (s.ensureC2s).err = s.err := by
  unfold State.ensureC2s; split <;> rfl
@[simp] theorem State.ensureC2s_errcode : (s.ensureC2s).errcode = s.errcode := by
  unfold State.ensureC2s; split <;> rfl
@[simp] theorem State.ensureC2s_treeBuilt : (s.ensureC2s).treeBuilt = s.treeBuilt := by
  unfold State.ensureC2s; split <;> rfl
@[simp] theorem State.ensureC2s_rootValid : (s.ensureC2s).rootValid = s.rootValid := by
  unfold State.ensureC2s; split <;> rfl
@[simp] theorem State.ensureC2s_s2cValid : (s.ensureC2s).s2cValid = s.s2cValid := by
  unfold State.ensureC2s; split <;> rfl
@[simp] theorem State.ensureC2s_c2sValid : (s.ensureC2s).c2sValid = true := by
  unfold State.ensureC2s; split <;> simp_all
@[simp] theorem State.ensureC2s_inAvail : (s.ensureC2s).inAvail = s.inAvail := by
  unfold State.ensureC2s; split <;> rfl
@[simp] theorem State.ensureC2s_symCount : (s.ensureC2s).symCount = s.symCount := by
  unfold State.ensureC2s; split <;> rfl
@[simp] theorem State.ensureC2s_rptOrig : (s.ensureC2s).rptOrig = s.rptOrig := by
  unfold State.ensureC2s; split <;> rfl
@[simp] theorem State.ensureC2s_rptPacked : (s.ensureC2s).rptPacked = s.rptPacked := by
  unfold State.ensureC2s; split <;> rfl
@[simp] theorem State.ensureC2s_rptHdr : (s.ensureC2s).rptHdr = s.rptHdr := by
  unfold State.ensureC2s; split <;> rfl
@[simp] theorem State.ensureC2s_lkLen : (s.ensureC2s).lkLen = s.lkLen := by
  unfold State.ensureC2s; split <;> rfl
@[simp] theorem State.ensureC2s_lkHit : (s.ensureC2s).lkHit = s.lkHit := by
  unfold State.ensureC2s; split <;> rfl
@[simp] theorem State.ensureC2s_lkSym : (s.ensureC2s).lkSym = s.lkSym := by
  unfold State.ensureC2s; split <;> rfl
@[simp] theorem State.ensureC2s_codev : (s.ensureC2s).codev = s.codev := by
  unfold State.ensureC2s; split <;> rfl
@[simp] theorem State.ensureC2s_gbResult : (s.ensureC2s).gbResult = s.gbResult := by
  unfold State.ensureC2s; split <;> rfl
@[simp] theorem State.ensureC2s_present : (s.ensureC2s).present = s.present := by
  unfold State.ensureC2s; split <;> rfl
@[simp] theorem State.ensureC2s_freq : (s.ensureC2s).freq = s.freq := by
  unfold State.ensureC2s; split <;> rfl
@[simp] theorem State.ensureC2s_inData : (s.ensureC2s).inData = s.inData := by
  unfold State.ensureC2s; split <;> rfl
@[simp] theorem State.ensureC2s_inPtr : (s.ensureC2s).inPtr = s.inPtr := by
  unfold State.ensureC2s; split <;> rfl
@[simp] theorem State.ensureC2s_out : (s.ensureC2s).out = s.out := by
  unfold State.ensureC2s; split <;> rfl
@[simp] theorem State.ensureC2s_arena : (s.ensureC2s).arena = s.arena := by
  unfold State.ensureC2s; split <;> rfl
@[simp] theorem State.ensureC2s_root : (s.ensureC2s).root = s.root := by
  unfold State.ensureC2s; split <;> rfl
@[simp] theorem State.ensureC2s_s2c : (s.ensureC2s).s2c = s.s2c := by
  unfold State.ensureC2s; split <;> rfl
theorem State.ensureC2s_c2s : (s.ensureC2s).c2s = if s.c2sValid then s.c2s else c2sTable s.codes := by
  unfold State.ensureC2s; split <;> rfl
@[simp] theorem State.ensureC2s_hostQueue : (s.ensureC2s).hostQueue = s.hostQueue := by
  unfold State.ensureC2s; split <;> rfl
@[simp] theorem State.ensureC2s_hostReplies : (s.ensureC2s).hostReplies = s.hostReplies := by
  unfold State.ensureC2s; split <;> rfl
@[simp] theorem State.ensureC2s_draws : (s.ensureC2s).draws = s.draws := by
  unfold State.ensureC2s; split <;> rfl

/-! ## Reset (70_reset_and_hazards.md R251) -/

@[simp] theorem State.resetEngine_cmd : s.resetEngine.cmd = State.reset.cmd := rfl
@[simp] theorem State.resetEngine_busy : s.resetEngine.busy = State.reset.busy := rfl
@[simp] theorem State.resetEngine_done : s.resetEngine.done = State.reset.done := rfl
@[simp] theorem State.resetEngine_err : s.resetEngine.err = State.reset.err := rfl
@[simp] theorem State.resetEngine_errcode : s.resetEngine.errcode = State.reset.errcode := rfl
@[simp] theorem State.resetEngine_treeBuilt : s.resetEngine.treeBuilt = State.reset.treeBuilt := rfl
@[simp] theorem State.resetEngine_rootValid : s.resetEngine.rootValid = State.reset.rootValid := rfl
@[simp] theorem State.resetEngine_s2cValid : s.resetEngine.s2cValid = State.reset.s2cValid := rfl
@[simp] theorem State.resetEngine_c2sValid : s.resetEngine.c2sValid = State.reset.c2sValid := rfl
@[simp] theorem State.resetEngine_inAvail : s.resetEngine.inAvail = State.reset.inAvail := rfl
@[simp] theorem State.resetEngine_symCount : s.resetEngine.symCount = State.reset.symCount := rfl
@[simp] theorem State.resetEngine_rptOrig : s.resetEngine.rptOrig = State.reset.rptOrig := rfl
@[simp] theorem State.resetEngine_rptPacked : s.resetEngine.rptPacked = State.reset.rptPacked := rfl
@[simp] theorem State.resetEngine_rptHdr : s.resetEngine.rptHdr = State.reset.rptHdr := rfl
@[simp] theorem State.resetEngine_lkLen : s.resetEngine.lkLen = State.reset.lkLen := rfl
@[simp] theorem State.resetEngine_lkHit : s.resetEngine.lkHit = State.reset.lkHit := rfl
@[simp] theorem State.resetEngine_lkSym : s.resetEngine.lkSym = State.reset.lkSym := rfl
@[simp] theorem State.resetEngine_codev : s.resetEngine.codev = State.reset.codev := rfl
@[simp] theorem State.resetEngine_gbResult : s.resetEngine.gbResult = State.reset.gbResult := rfl
@[simp] theorem State.resetEngine_present : s.resetEngine.present = State.reset.present := rfl
@[simp] theorem State.resetEngine_freq : s.resetEngine.freq = State.reset.freq := rfl
@[simp] theorem State.resetEngine_inData : s.resetEngine.inData = State.reset.inData := rfl
@[simp] theorem State.resetEngine_inPtr : s.resetEngine.inPtr = State.reset.inPtr := rfl
@[simp] theorem State.resetEngine_out : s.resetEngine.out = s.out := rfl
@[simp] theorem State.resetEngine_arena : s.resetEngine.arena = State.reset.arena := rfl
@[simp] theorem State.resetEngine_root : s.resetEngine.root = State.reset.root := rfl
@[simp] theorem State.resetEngine_s2c : s.resetEngine.s2c = State.reset.s2c := rfl
@[simp] theorem State.resetEngine_c2s : s.resetEngine.c2s = State.reset.c2s := rfl
@[simp] theorem State.resetEngine_hostQueue : s.resetEngine.hostQueue = s.hostQueue := rfl
@[simp] theorem State.resetEngine_hostReplies : s.resetEngine.hostReplies = s.hostReplies := rfl
@[simp] theorem State.resetEngine_draws : s.resetEngine.draws = s.draws := rfl

end Sys2Proof.Machine
end

