-- ==== Sys2Proof/Laws/Ops.lean ====
section
/-! SUPPORT. What the shared operations can do, said once: the streams, byte order, bit strings, the frequency table,
and command bodies. -/

namespace Sys2Proof.Machine

/-! ## Command bodies -/

@[simp] theorem Body.finish_done (s : State) : (Body.done s).finish = .next s.complete := rfl
@[simp] theorem Body.finish_raised (e : EngineError) (s : State) : (Body.raised e s).finish = .next (s.raise e) := rfl
@[simp] theorem Body.finish_refused (r : Refusal) : (Body.refused r).finish = .refused r := rfl
@[simp] theorem Body.done_andThen (s : State) (k : State → Body) : (Body.done s).andThen k = k s := rfl
@[simp] theorem Body.raised_andThen (e : EngineError) (s : State) (k : State → Body) :
    (Body.raised e s).andThen k = .raised e s := rfl
@[simp] theorem Body.refused_andThen (r : Refusal) (k : State → Body) :
    (Body.refused r).andThen k = .refused r := rfl

/-- Everything a command body can come to: completion, the abort with an error, or a refusal. -/
theorem Body.finish_next {b : Body} {t : State} (h : b.finish = .next t) :
    (∃ s, b = .done s ∧ t = s.complete) ∨ (∃ e s, b = .raised e s ∧ t = s.raise e) := by
  cases b with
  | done s => exact .inl ⟨s, rfl, by simpa using h.symm⟩
  | raised e s => exact .inr ⟨e, s, rfl, by simpa using h.symm⟩
  | refused r => simp at h

/-- No command body ends in a fault (93_implementation_defined.md: no item is "stuck"). -/
theorem Body.finish_ne_fault (b : Body) (r : Fault) : b.finish ≠ .fault r := nomatch r

theorem requireInput_attached {s : State} (h : s.inAvail = true) (body : State → Body) :
    requireInput body s = body s := by simp [requireInput, h]

theorem requireInput_detached {s : State} (h : s.inAvail = false) (body : State → Body) :
    requireInput body s = .raised .input s := by simp [requireInput, h]

theorem requireTree_built {s : State} (h : s.treeBuilt = true) (body : State → Body) :
    requireTree body s = body s := by simp [requireTree, h]

theorem requireTree_missing {s : State} (h : s.treeBuilt = false) (body : State → Body) :
    requireTree body s = .raised .noTree s := by simp [requireTree, h]

/-! ## The input stream -/

@[simp] theorem State.unread_rewind (s : State) : s.rewind.unread = s.inData := by simp [State.unread]

theorem State.unread_length (s : State) : s.unread.length = s.inData.length - s.inPtr.toNat := by
  simp [State.unread]

/-- Reading k bytes within the stream moves in_ptr by k and drops those bytes from the unread ones. -/
theorem State.consume_inPtr_toNat {s : State} (h : StreamsOk s) {k : Nat} (hk : k ≤ s.unread.length) :
    (s.consume k).inPtr.toNat = s.inPtr.toNat + k := by
  have h₂ : s.inData.length ≤ 2 ^ 56 - 1 := h.2.1
  have h₁ := h.1
  rw [s.unread_length] at hk
  simp only [State.consume_inPtr, BitVec.toNat_ofNat]
  exact Nat.mod_eq_of_lt (by omega)

theorem State.unread_consume {s : State} (h : StreamsOk s) {k : Nat} (hk : k ≤ s.unread.length) :
    (s.consume k).unread = s.unread.drop k := by
  rw [State.unread, State.consume_inPtr_toNat h hk, State.consume_inData, State.unread, List.drop_drop]

/-! ## Byte order -/

@[simp] theorem leBytes_length (n v : Nat) : (leBytes n v).length = n := by
  induction n generalizing v with
  | zero => rfl
  | succ n ih => simp [leBytes, ih]

/-- The low n bytes of a number, read back. -/
theorem ofLeBytes_leBytes (n v : Nat) : ofLeBytes (leBytes n v) = v % 256 ^ n := by
  induction n generalizing v with
  | zero => simp [leBytes, ofLeBytes, Nat.mod_one]
  | succ n ih =>
    have hm : v % 256 ^ (n + 1) = v % 256 + 256 * (v / 256 % 256 ^ n) := by rw [Nat.pow_succ', Nat.mod_mul]
    rw [leBytes, ofLeBytes, ih, BitVec.toNat_ofNat, hm]

theorem ofLeBytes_lt (bs : List Byte) : ofLeBytes bs < 256 ^ bs.length := by
  induction bs with
  | nil => simp [ofLeBytes]
  | cons b bs ih =>
    have := b.isLt
    simp only [ofLeBytes, List.length_cons, Nat.pow_succ']
    omega

@[simp] theorem outBytes64_length (v : Word) : (outBytes64 v).length = 8 := leBytes_length 8 _

/-- A header integer written and read back. -/
theorem inRead64_outBytes64 (v : Word) (rest : List Byte) :
    inRead64 (outBytes64 v ++ rest) = some (v, rest) := by
  have hv : v.toNat % 256 ^ 8 = v.toNat := Nat.mod_eq_of_lt (by have := v.isLt; omega)
  have ht : (outBytes64 v ++ rest).take 8 = outBytes64 v := by
    rw [List.take_append_of_le_length (by simp), List.take_of_length_le (by simp)]
  have hd : (outBytes64 v ++ rest).drop 8 = rest := by
    rw [List.drop_append_of_le_length (by simp), List.drop_of_length_le (by simp), List.nil_append]
  rw [inRead64, if_neg (by simp), ht, hd, outBytes64, ofLeBytes_leBytes, hv]
  simp

theorem inRead64_short {unread : List Byte} (h : unread.length < 8) : inRead64 unread = none := by
  simp [inRead64, h]

/-- Everything InRead64 can answer: eight bytes taken, or EOS. -/
theorem inRead64_some {unread rest : List Byte} {v : Word} (h : inRead64 unread = some (v, rest)) :
    8 ≤ unread.length ∧ rest = unread.drop 8 := by
  unfold inRead64 at h
  split at h
  · simp at h
  · simp only [Option.some.injEq, Prod.mk.injEq] at h
    exact ⟨by omega, h.2.symm⟩

/-! ## Bit strings -/

@[simp] theorem bitsOf_length (len v : Nat) : (bitsOf len v).length = len := by
  induction len with
  | zero => rfl
  | succ n ih => simp [bitsOf, ih]

theorem bitVal_foldl (c : BitString) (v : Nat) :
    c.foldl (fun v b => 2 * v + b.toNat) v = v * 2 ^ c.length + bitVal c := by
  induction c generalizing v with
  | nil => simp [bitVal]
  | cons b bs ih =>
    simp only [bitVal, List.foldl_cons, List.length_cons] at *
    rw [ih (2 * v + b.toNat), ih (2 * 0 + b.toNat), Nat.pow_succ]
    ring

theorem bitVal_cons (b : Bool) (c : BitString) : bitVal (b :: c) = b.toNat * 2 ^ c.length + bitVal c := by
  have h := bitVal_foldl c (2 * 0 + b.toNat)
  simpa [bitVal] using h

theorem bitVal_lt (c : BitString) : bitVal c < 2 ^ c.length := by
  induction c with
  | nil => simp [bitVal]
  | cons b bs ih =>
    rw [bitVal_cons, List.length_cons, Nat.pow_succ]
    cases b <;> simp <;> omega

/-- `bitsOf len v` is the string of that length with value `v mod 2^len`. -/
theorem bitVal_bitsOf (len v : Nat) : bitVal (bitsOf len v) = v % 2 ^ len := by
  induction len with
  | zero => simp [bitsOf, bitVal, Nat.mod_one]
  | succ n ih =>
    rw [bitsOf, bitVal_cons, ih, bitsOf_length, Nat.pow_succ, Nat.mod_mul, Nat.toNat_testBit]
    ring

/-- A bit string is known by its length and value. -/
theorem bitVal_inj {c d : BitString} (hl : c.length = d.length) (hv : bitVal c = bitVal d) : c = d := by
  induction c generalizing d with
  | nil => cases d with
    | nil => rfl
    | cons _ _ => simp at hl
  | cons b bs ih =>
    cases d with
    | nil => simp at hl
    | cons b' ds =>
      have hl' : bs.length = ds.length := by simpa using hl
      rw [bitVal_cons, bitVal_cons, hl'] at hv
      have h₁ := bitVal_lt bs
      have h₂ := bitVal_lt ds
      rw [hl'] at h₁
      have hb : b = b' := by cases b <;> cases b' <;> simp at hv ⊢ <;> omega
      subst hb
      rw [ih hl' (by omega)]

/-! ## The frequency table -/

theorem mem_allSymbols (b : Symbol) : b ∈ allSymbols := by
  simp only [allSymbols, List.mem_map, List.mem_range]
  exact ⟨b.toNat, b.isLt, by simp⟩

@[simp] theorem State.mem_keys {s : State} {b : Symbol} : b ∈ s.keys ↔ s.isKey b = true := by
  simp [State.keys, mem_allSymbols]

theorem ofNat_range_ascending (n : Nat) (hn : n ≤ 256) :
    ((List.range n).map (BitVec.ofNat 8)).Pairwise (fun a b => a.toNat < b.toNat) := by
  rw [List.pairwise_map]
  refine List.pairwise_lt_range.imp_of_mem ?_
  intro a b ha hb hab
  rw [List.mem_range] at ha hb
  rw [BitVec.toNat_ofNat, BitVec.toNat_ofNat, Nat.mod_eq_of_lt (by omega), Nat.mod_eq_of_lt (by omega)]
  exact hab

/-- Keys are iterated in ascending unsigned symbol order (10_state.md R35). -/
theorem allSymbols_ascending : allSymbols.Pairwise (fun a b => a.toNat < b.toNat) :=
  ofNat_range_ascending 256 le_rfl

theorem State.keys_ascending (s : State) : s.keys.Pairwise (fun a b => a.toNat < b.toNat) :=
  allSymbols_ascending.sublist List.filter_sublist

theorem State.keys_nodup (s : State) : s.keys.Nodup :=
  s.keys_ascending.imp fun h he => by simp [he] at h

/-- TBL_COUNT counts the keys (10_state.md R26). -/
theorem State.keys_length (s : State) : s.keys.length = popcount s.present := by
  have hf : ∀ n ≤ 256, (List.range n).filter (s.isKey ∘ BitVec.ofNat 8) = (List.range n).filter s.present.getLsbD :=
    fun n hn => List.filter_congr fun k hk => by
      rw [List.mem_range] at hk
      simp [State.isKey, Nat.mod_eq_of_lt (show k < 256 by omega)]
  rw [State.keys, allSymbols, List.filter_map, List.length_map, popcount, hf 256 le_rfl]

theorem popcount_le (v : BitVec 256) : popcount v ≤ 256 :=
  (List.length_filter_le _ _).trans (by simp)

@[simp] theorem State.setEntry_isKey (s : State) (b c : Symbol) (f : Word) :
    (s.setEntry b f).isKey c = (s.isKey c || c == b) := by
  have hb := b.isLt
  have hc := c.isLt
  simp only [State.isKey, State.setEntry_present, BitVec.getLsbD_or, BitVec.getLsbD_shiftLeft, BitVec.getLsbD_one]
  by_cases h : c = b
  · subst h
    simp [show c.toNat < 256 from hc]
  · have : c.toNat ≠ b.toNat := fun e => h (BitVec.eq_of_toNat_eq e)
    have hn : (c == b) = false := by simpa using h
    have hz : (decide (c.toNat < 256) && !decide (c.toNat < b.toNat) &&
        (decide (0 < 256) && decide (c.toNat - b.toNat = 0))) = false := by
      simp only [Bool.and_eq_false_iff, Bool.not_eq_false', decide_eq_true_eq, decide_eq_false_iff_not]
      omega
    rw [hn, hz, Bool.or_false]

theorem State.setEntry_freqOf (s : State) (b c : Symbol) (f : Word) :
    (s.setEntry b f).freqOf c = if c = b then f else s.freqOf c := by
  by_cases h : c = b
  · subst h; simp [State.freqOf]
  · have : b.toNat ≠ c.toNat := fun e => h (BitVec.eq_of_toNat_eq e.symm)
    simp [State.freqOf, h, this]

@[simp] theorem State.clearTable_isKey (s : State) (b : Symbol) : s.clearTable.isKey b = false := by
  simp [State.isKey]

@[simp] theorem State.clearTable_freqOf (s : State) (b : Symbol) : s.clearTable.freqOf b = 0 := by
  simp [State.freqOf]

end Sys2Proof.Machine
end

