-- ==== Sys2Proof/Laws/Tree.lean ====
section
/-! SUPPORT. What the priority structure, the merge loop and the code walk can do (41_tree.md R120, R122, R130). -/

namespace Sys2Proof.Machine

/-! ## PopMin (R122) -/

theorem QEntry.before_iff (x y : QEntry) :
    x.before y = true ↔ x.freq.toNat < y.freq.toNat ∨ (x.freq.toNat = y.freq.toNat ∧ x.idx < y.idx) := by
  simp [QEntry.before]

theorem QEntry.before_trans {x y z : QEntry} (h₁ : x.before y = true) (h₂ : y.before z = true) :
    x.before z = true := by
  rw [QEntry.before_iff] at *; omega

/-- Of two entries with different node indices, one comes before the other: PopMin "has exactly one answer". -/
theorem QEntry.before_total {x y : QEntry} (h : x.idx ≠ y.idx) : x.before y = true ∨ y.before x = true := by
  simp only [QEntry.before_iff]; omega

theorem popMin_eq_none {q : List QEntry} : popMin q = none ↔ q = [] := by
  cases q with
  | nil => simp [popMin]
  | cons x q => simp only [popMin]; split <;> [simp; split] <;> simp

/-- PopMin removes one element. -/
theorem popMin_perm {q rest : List QEntry} {x : QEntry} (h : popMin q = some (x, rest)) : q.Perm (x :: rest) := by
  induction q generalizing x rest with
  | nil => simp [popMin] at h
  | cons a q ih =>
    simp only [popMin] at h
    split at h
    · rename_i hn
      simp only [Option.some.injEq, Prod.mk.injEq] at h
      rw [popMin_eq_none.1 hn, h.1, ← h.2]
    · rename_i y r hs
      have hp := ih hs
      split at h <;> simp only [Option.some.injEq, Prod.mk.injEq] at h <;> obtain ⟨rfl, rfl⟩ := h
      · exact (hp.cons a).trans (List.Perm.swap _ _ _)
      · exact hp.cons a

/-- Nothing left in Q comes before what PopMin returned. -/
theorem popMin_least {q rest : List QEntry} {x : QEntry} (h : popMin q = some (x, rest)) :
    ∀ y ∈ rest, y.before x = false := by
  induction q generalizing x rest with
  | nil => simp [popMin] at h
  | cons a q ih =>
    simp only [popMin] at h
    split at h
    · simp only [Option.some.injEq, Prod.mk.injEq] at h
      simp [← h.2]
    · rename_i y r hs
      have hl := ih hs
      split at h <;> rename_i hb <;> simp only [Option.some.injEq, Prod.mk.injEq] at h <;> obtain ⟨rfl, rfl⟩ := h
      · intro z hz
        rcases List.mem_cons.1 hz with rfl | hz
        · simp only [QEntry.before, decide_eq_true_eq, decide_eq_false_iff_not] at *; omega
        · exact hl z hz
      · intro z hz
        rcases List.mem_cons.1 hz with rfl | hz
        · simpa using hb
        · have := hl z hz
          simp only [QEntry.before, decide_eq_true_eq, decide_eq_false_iff_not] at *; omega

theorem popMin_length {q rest : List QEntry} {x : QEntry} (h : popMin q = some (x, rest)) :
    q.length = rest.length + 1 := by
  simpa using (popMin_perm h).length_eq

/-! ## The merge loop (R120) -/

/-- One merge: the two least entries are replaced by one for a new last node, the first popped on the left. -/
theorem mergeLoop_merge {q q₁ q₂ : List QEntry} {i j : QEntry} (fuel : Nat) (arena : List Node)
    (hi : popMin q = some (i, q₁)) (hj : popMin q₁ = some (j, q₂)) :
    mergeLoop (fuel + 1) q arena =
      mergeLoop fuel (⟨i.freq + j.freq, arena.length⟩ :: q₂) (arena ++ [.internal (i.freq + j.freq) i.idx j.idx]) := by
  simp [mergeLoop, hi, hj]

/-- With fewer than two entries in Q the loop stops. -/
theorem mergeLoop_stop {q : List QEntry} (h : q.length < 2) (fuel : Nat) (arena : List Node) :
    mergeLoop fuel q arena = arena := by
  cases fuel with
  | zero => rfl
  | succ fuel =>
    simp only [mergeLoop]
    split
    · rfl
    · rename_i i q₁ hi
      have := popMin_length hi
      have hq : q₁ = [] := List.length_eq_zero_iff.1 (by omega)
      simp [hq, popMin]

/-- Records already made stay as they are. -/
theorem mergeLoop_extends (fuel : Nat) (q : List QEntry) (arena : List Node) :
    arena <+: mergeLoop fuel q arena := by
  induction fuel generalizing q arena with
  | zero => exact List.prefix_refl _
  | succ fuel ih =>
    simp only [mergeLoop]
    split
    · exact List.prefix_refl _
    · split
      · exact List.prefix_refl _
      · exact (List.prefix_append _ _).trans (ih _ _)

/-- n entries take n − 1 merges (R124). -/
theorem mergeLoop_length (fuel : Nat) (q : List QEntry) (arena : List Node) (h : q.length ≤ fuel + 1) :
    (mergeLoop fuel q arena).length = arena.length + (q.length - 1) := by
  induction fuel generalizing q arena with
  | zero => simp only [mergeLoop]; omega
  | succ fuel ih =>
    simp only [mergeLoop]
    split
    · rename_i hn; simp [popMin_eq_none.1 hn]
    · rename_i i q₁ hi
      have h₁ := popMin_length hi
      split
      · rename_i hn
        have := popMin_eq_none.1 hn
        subst this
        simp at h₁
        omega
      · rename_i j q₂ hj
        have h₂ := popMin_length hj
        rw [ih _ _ (by simp; omega)]
        simp only [List.length_append, List.length_cons, List.length_nil]
        omega

/-! ## The code walk (R130) -/

/-- Every path a walk gives extends the path it starts with. -/
theorem walk_extends (arena : List Node) (fuel k : Nat) (p : BitString) :
    ∀ e ∈ walk arena fuel k p, p <+: e.2 := by
  induction fuel generalizing k p with
  | zero => simp [walk]
  | succ fuel ih =>
    intro e he
    simp only [walk] at he
    split at he
    · simp at he
    · simp only [List.mem_singleton] at he
      exact he ▸ List.prefix_refl _
    · rcases List.mem_append.1 he with h | h
      · exact (List.prefix_append _ _).trans (ih _ _ e h)
      · exact (List.prefix_append _ _).trans (ih _ _ e h)

/-! ## The code tables (R134) -/

@[simp] theorem s2cTable_get (m : List (Symbol × BitString)) (b : Symbol) :
    (s2cTable m)[b.toNat]'b.isLt = m.lookup b := by
  simp [s2cTable]

/-- After EnsureS2C the table is the tree's, whichever flag state it met (10_state.md R52). -/
theorem State.ensureS2c_codeOf {s : State} (h : CodeTablesOk s) (b : Symbol) :
    s.ensureS2c.codeOf b = s.codes.lookup b := by
  have ht : s.ensureS2c.s2c = s2cTable s.codes := by
    rw [State.ensureS2c_s2c]; split <;> [exact h.1 ‹_›; rfl]
  simp [State.codeOf, ht]

/-- After EnsureC2S the table is the inverse of the tree's code map (10_state.md R52). -/
theorem State.ensureC2s_table {s : State} (h : CodeTablesOk s) : s.ensureC2s.c2s = c2sTable s.codes := by
  rw [State.ensureC2s_c2s]; split <;> [exact h.2 ‹_›; rfl]

end Sys2Proof.Machine
end

