-- ==== Sys2Proof/Laws/Step.lean ====
section
/-! SUPPORT. What one step can be, said once, and the small facts of the host's port. -/

namespace Sys2Proof.Machine

/-- Everything a step can be: the engine runs the pending command, the machine idles, or the host makes a move. -/
theorem step_cases (s : State) :
    (s.busy = true ∧ (∀ m ∈ s.hostQueue.head?, m.waits = true) ∧ step s = runPending s) ∨
    (s.busy = false ∧ s.hostQueue = [] ∧ step s = .next s) ∨
    (∃ m rest, s.hostQueue = m :: rest ∧ (s.busy = true → m.waits = false) ∧
      step s = hostMove m { s with hostQueue := rest }) := by
  unfold step nextMove
  cases hq : s.hostQueue with
  | nil => cases hb : s.busy <;> simp
  | cons m rest => cases hb : s.busy <;> cases he : m.waits <;> simp [he]

/-- Bit 0 of STATUS is BUSY (10_state.md R24). -/
@[simp] theorem statusWord_getElem_zero (s : State) : s.statusWord[0] = s.busy := by
  rw [← BitVec.getLsbD_eq_getElem]
  exact (BitVec.getLsbD_append ..).trans (by simp)

/-- A read of a POLL with no command pending ends it. -/
theorem pollRead_of_idle {s : State} (n : Nat) (h : s.busy = false) :
    pollRead n s = .next (s.reply (.value s.statusWord)) := by
  simp [pollRead, State.readReg, h]

/-- A read of a POLL while a command is pending leaves the POLL to go on. -/
theorem pollRead_of_busy {s : State} (n : Nat) (h : s.busy = true) :
    pollRead n s =
      .next { s.reply (.value s.statusWord) with hostQueue := .poll (n - 1) :: s.hostQueue } := by
  simp [pollRead, State.readReg, h]

/-- A pending command is either a legal word, which runs, or completes with ERR_ILLEGAL. -/
theorem runPending_cases (s : State) :
    (∃ i, decode s.cmd = .ok i ∧ runPending s = exec i s) ∨
    (∃ e, decode s.cmd = .error e ∧ runPending s = .next (s.raise .illegal)) := by
  unfold runPending
  cases h : decode s.cmd with
  | ok i => exact .inl ⟨i, rfl, rfl⟩
  | error e => exact .inr ⟨e, rfl, rfl⟩

theorem accessedReg_eq_some {addr width : Nat} {r : Reg} (h : accessedReg addr width = some r) :
    width = 8 ∧ Config.blockBase ≤ addr ∧ regAt (addr - Config.blockBase) = some r := by
  unfold accessedReg at h
  split at h
  · rename_i hc; exact ⟨hc.1, hc.2, h⟩
  · simp at h

@[simp] theorem wordSlice_getLsbD (w : BitVec 256) (j : Fin 4) (b : Nat) :
    (wordSlice w j).getLsbD b = (decide (b < 64) && w.getLsbD (64 * j.val + b)) := by
  simp [wordSlice]

@[simp] theorem hostReset_hostQueue (s : State) : (hostReset s).hostQueue = s.hostQueue := by
  unfold hostReset; split <;> rfl

@[simp] theorem hostReset_hostReplies (s : State) : (hostReset s).hostReplies = s.hostReplies := by
  unfold hostReset; split <;> rfl

end Sys2Proof.Machine
end

