-- ==== Sys2Proof/Laws/PerInstr.lean ====
section
/-! SUPPORT. Facts about every instruction as syntax, one lemma per constructor. -/

/-- The fields of an instruction have the widths of the command word (30_encoding.md R91): a one-byte opcode, and for
a well-formed instruction a SYM operand of 8 bits and an IDX operand of 4. So an encoded word has CMD[63:20] = 0. -/
def Sys2Proof.Laws.FieldWidths.Statement (i : Sys2Proof.Instr) : Prop :=
  i.wellFormed = true → i.opcode < 2 ^ 8 ∧ i.symOperand < 2 ^ 8 ∧ i.idxOperand < 2 ^ 4

namespace Sys2Proof.Laws.FieldWidths

theorem ftClear : Statement .ftClear := by unfold Statement; decide
theorem ftScan : Statement .ftScan := by unfold Statement; decide
theorem inRewind : Statement .inRewind := by unfold Statement; decide
theorem treeBuild : Statement .treeBuild := by unfold Statement; decide
theorem lookupS2c (sym : Nat) : Statement (.lookupS2c sym) := by
  intro h
  simp only [Instr.wellFormed, symOperandOk, decide_eq_true_eq] at h
  simp only [Instr.opcode, Instr.symOperand, Instr.idxOperand]
  omega
theorem lookupC2s : Statement .lookupC2s := by unfold Statement; decide
theorem pack : Statement .pack := by unfold Statement; decide
theorem getbit (b idx : Nat) : Statement (.getbit b idx) := by
  intro h
  simp only [Instr.wellFormed, symOperandOk, idxOperandOk, Bool.and_eq_true, decide_eq_true_eq] at h
  simp only [Instr.opcode, Instr.symOperand, Instr.idxOperand]
  omega
theorem unpack : Statement .unpack := by unfold Statement; decide
theorem hdrWrite : Statement .hdrWrite := by unfold Statement; decide
theorem hdrRead : Statement .hdrRead := by unfold Statement; decide
theorem compress : Statement .compress := by unfold Statement; decide
theorem decompress : Statement .decompress := by unfold Statement; decide

end Sys2Proof.Laws.FieldWidths
end

