-- ==== Sys2Proof/Tests/Slice0.lean ====
section
/-! SUPPORT. The model's own tests: expected results are the vectors of 95_test_vectors.md or calculated by hand from the
rules named, and a witness for the hypotheses of each statement. -/

namespace Sys2Proof.Tests

-- Each evaluation waits for the one before it: without this every waiting theorem holds a thread's stack.
set_option Elab.async false

open Sys2Proof.Machine Sys2Proof.Claims

/-! ## Well-formedness (30_encoding.md R97) -/

theorem test_sym_above_255_is_ill_formed : (Instr.lookupS2c 256).wellFormed = false := by decide
theorem test_byte_above_255_is_ill_formed : (Instr.getbit 256 1).wellFormed = false := by decide
theorem test_idx_above_15_is_ill_formed : (Instr.getbit 0 16).wellFormed = false := by decide
theorem test_widest_operands_are_well_formed :
    (Instr.lookupS2c 255).wellFormed = true ∧ (Instr.getbit 255 15).wellFormed = true := by decide

/-! ## Decoding: words written out from R91 and R93, and the table of 95_test_vectors.md L2.1 -/

theorem test_decode_ft_clear : decode 0b00000001#64 = .ok .ftClear := by decide
theorem test_decode_ft_scan : decode 0b00000010#64 = .ok .ftScan := by decide
theorem test_decode_in_rewind : decode 0b00000011#64 = .ok .inRewind := by decide
theorem test_decode_tree_build : decode 0b00010000#64 = .ok .treeBuild := by decide
theorem test_decode_lookup_s2c : decode 0b01100011_00010001#64 = .ok (.lookupS2c 0x63) := by decide
theorem test_decode_lookup_s2c_last : decode 0x000000000000FF11#64 = .ok (.lookupS2c 0xFF) := by decide
theorem test_decode_lookup_c2s : decode 0b00010010#64 = .ok .lookupC2s := by decide
theorem test_decode_pack : decode 0b00100000#64 = .ok .pack := by decide
theorem test_decode_getbit : decode 0b0001_10100101_00110000#64 = .ok (.getbit 0xA5 1) := by decide
theorem test_decode_getbit_last : decode 0x00000000000FFF30#64 = .ok (.getbit 0xFF 15) := by decide
theorem test_decode_unpack : decode 0b00110001#64 = .ok .unpack := by decide
theorem test_decode_hdr_write : decode 0b01000000#64 = .ok .hdrWrite := by decide
theorem test_decode_hdr_read : decode 0b01000001#64 = .ok .hdrRead := by decide
theorem test_decode_compress : decode 0b01010000#64 = .ok .compress := by decide
theorem test_decode_decompress : decode 0b01010001#64 = .ok .decompress := by decide
theorem test_reject_zero : decode 0x0#64 = .error (.unassignedOpcode 0) := by decide
theorem test_reject_0x52 : decode 0x52#64 = .error (.unassignedOpcode 0x52) := by decide
theorem test_reject_sym_on_ft_clear : decode 0x101#64 = .error .unusedSym := by decide
theorem test_reject_idx_on_lookup_s2c : decode 0xF0011#64 = .error .unusedIdx := by decide
theorem test_reject_bit_20 : decode 0x100030#64 = .error .reservedBits := by decide
theorem test_reject_bit_32 : decode 0x100000050#64 = .error .reservedBits := by decide
theorem test_table_word : decodeTableWord 32 0x00006311 = some (.lookupS2c 0x63) := by decide

/-! ## Small states -/

/-- The state a next outcome carries. -/
def nextOf : Host.Outcome State Fault Refusal → Option State
  | .next t => some t
  | .fault _ => none
  | .refused _ => none

/-- A table of the given entries. -/
def table (es : List (Symbol × Word)) : State := es.foldl (fun s e => s.setEntry e.1 e.2) State.reset

/-- The state with these bytes attached. -/
def attached (bytes : List Byte) (s : State) : State := { s with inData := bytes, inPtr := 0, inAvail := true }

/-- "aaaabbbccd" (95_test_vectors.md S1). -/
def s1Input : List Byte := [0x61, 0x61, 0x61, 0x61, 0x62, 0x62, 0x62, 0x63, 0x63, 0x64]

/-- "abacaba" (95_test_vectors.md S2). -/
def s2Input : List Byte := [0x61, 0x62, 0x61, 0x63, 0x61, 0x62, 0x61]

/-- The table {a:4, b:3, c:2, d:1} and its tree. -/
def tree4 : State := treeBuildBody (table [(0x61, 4), (0x62, 3), (0x63, 2), (0x64, 1)])

/-- The container of "abacaba" (95_test_vectors.md L2.8). -/
def s2Container : List Byte :=
  [3, 0, 0, 0, 0, 0, 0, 0, 7, 0, 0, 0, 0, 0, 0, 0, 0x61, 4, 0, 0, 0, 0, 0, 0, 0, 0x62, 2, 0, 0, 0, 0, 0, 0, 0,
    0x63, 1, 0, 0, 0, 0, 0, 0, 0, 0xB2, 0xC0]

/-! ## Commands (95_test_vectors.md L2, L3) -/

theorem test_ft_clear :
    (nextOf (exec .ftClear (table [(0x61, 4)]))).map (fun t => (popcount t.present, t.freqOf 0x61, t.symCount)) =
      some (0, 0, 0) := by decide +kernel

theorem test_ft_scan :
    (nextOf (exec .ftScan (attached s1Input State.reset))).map (fun t =>
      (t.freqOf 0x61, t.freqOf 0x62, t.freqOf 0x63, t.freqOf 0x64, t.readReg (.present 1), t.symCount, t.rptOrig, t.inPtr)) =
      some (4, 3, 2, 1, 0x0000001E00000000, 10, 10, 10) := by decide +kernel

theorem test_ft_scan_no_input :
    (nextOf (exec .ftScan State.reset)).map State.statusWord = some 0x106 := by decide +kernel

theorem test_in_rewind :
    (nextOf (exec .inRewind { attached s1Input State.reset with inPtr := 10 })).map (fun t => (t.inPtr, t.statusWord)) =
      some (0, 0x82) := by decide +kernel

theorem test_in_rewind_no_input :
    (nextOf (exec .inRewind State.reset)).map State.statusWord = some 0x106 := by decide +kernel

theorem test_tree_build_tie :
    (nextOf (exec .treeBuild (table [(0x61, 4), (0x62, 3), (0x63, 2), (0x64, 1)]))).map (fun t => (t.arena, t.root)) =
      some ([.leaf 0x61 4, .leaf 0x62 3, .leaf 0x63 2, .leaf 0x64 1, .internal 3 3 2, .internal 6 1 4,
        .internal 10 0 5], some 6) := by decide +kernel

theorem test_tree_build_zero_counts :
    (nextOf (exec .treeBuild (table [(0, 0), (1, 0), (2, 5)]))).map (fun t => (t.codes.lookup 0, t.codes.lookup 1,
      t.codes.lookup 2)) =
      some (some [false, false], some [false, true], some [true]) := by decide +kernel

theorem test_lookup_s2c_hit :
    (nextOf (exec (.lookupS2c 0x63) tree4)).map (fun t => (t.readReg .lkCtrl, t.readReg (.lkCode 0))) =
      some (0x63010003, 7) := by decide +kernel

theorem test_lookup_s2c_miss :
    (nextOf (exec (.lookupS2c 0x65) { tree4 with codev := 5 })).map (fun t => (t.readReg .lkCtrl, t.codev)) =
      some (0x65000000, 0) := by decide +kernel

theorem test_lookup_c2s_ignores_high_bits :
    (nextOf (exec .lookupC2s { tree4 with lkLen := 1, codev := 0xFFFFFFFFFFFFFFFE })).map (fun t => (t.lkHit, t.lkSym)) =
      some (true, 0x61) := by decide +kernel

theorem test_lookup_c2s_proper_start_misses :
    (nextOf (exec .lookupC2s { tree4 with lkLen := 2, codev := 3, lkHit := true, lkSym := 9 })).map (fun t =>
      (t.lkHit, t.lkSym)) = some (false, 0) := by decide +kernel

theorem test_pack :
    (nextOf (exec .pack (attached s1Input tree4))).map (fun t => (t.out, t.rptOrig, t.rptPacked, t.inPtr)) =
      some ([0x0A, 0xBF, 0xC0], 10, 3, 10) := by decide +kernel

theorem test_pack_no_code :
    (nextOf (exec .pack (attached [0x61, 0x62, 0x63, 0x61, 0x62] (treeBuildBody (table [(0x61, 1), (0x62, 1)]))))).map
      (fun t => (t.out, t.errcode, t.rptOrig, t.rptPacked, t.inPtr)) = some ([], 7, 2, 0, 3) := by decide +kernel

theorem test_getbit :
    (List.range' 1 8).map (fun i => (nextOf (exec (.getbit 0xA5 i) State.reset)).map (·.gbResult)) =
      [1, 0, 1, 0, 0, 1, 0, 1].map some := by decide +kernel

theorem test_getbit_bad_index :
    [0, 9, 15].map (fun i => (nextOf (exec (.getbit 0xA5 i) { State.reset with gbResult := 1 })).map fun t =>
      (t.statusWord, t.gbResult)) = List.replicate 3 (some (0x306, 1)) := by decide +kernel

theorem test_unpack_decodes_padding_for_a_larger_count :
    (nextOf (exec .unpack { attached [0x0A, 0xBF, 0xC0] tree4 with symCount := 11 })).map (fun t =>
      (t.out, t.err, t.rptOrig, t.rptPacked)) = some (s1Input ++ [0x61], false, 11, 3) := by decide +kernel

theorem test_unpack_exhausted :
    (nextOf (exec .unpack { attached [0x0A, 0xBF] tree4 with symCount := 10 })).map (fun t =>
      (t.out, t.errcode, t.rptOrig, t.rptPacked, t.inPtr)) = some (s1Input.take 9, 2, 9, 2, 2) := by decide +kernel

theorem test_hdr_write :
    (nextOf (exec .hdrWrite { table [(0, 0)] with symCount := 0x0102030405060708 })).map (fun t => (t.out, t.rptHdr)) =
      some ([1, 0, 0, 0, 0, 0, 0, 0, 8, 7, 6, 5, 4, 3, 2, 1, 0, 0, 0, 0, 0, 0, 0, 0, 0], 25) := by decide +kernel

theorem test_hdr_read :
    (nextOf (exec .hdrRead (attached s2Container State.reset))).map (fun t =>
      (t.keys.map (fun b => (b, t.freqOf b)), t.symCount, t.rptHdr, t.inPtr)) =
      some ([(0x61, 4), (0x62, 2), (0x63, 1)], 7, 43, 43) := by decide +kernel

theorem test_hdr_read_duplicate :
    (nextOf (exec .hdrRead (attached [2, 0, 0, 0, 0, 0, 0, 0, 3, 0, 0, 0, 0, 0, 0, 0, 0x61, 1, 0, 0, 0, 0, 0, 0, 0,
      0x61, 2, 0, 0, 0, 0, 0, 0, 0] State.reset))).map (fun t =>
      (t.errcode, t.keys.map (fun b => (b, t.freqOf b)), t.symCount, t.inPtr)) =
      some (6, [(0x61, 1)], 0, 34) := by decide +kernel

theorem test_compress :
    (nextOf (exec .compress (attached s2Input State.reset))).map (fun t =>
      (t.out, t.statusWord, t.rptOrig, t.rptPacked, t.rptHdr)) = some (s2Container, 0xBA, 7, 2, 43) := by decide +kernel

theorem test_compress_empty :
    (nextOf (exec .compress (attached [] State.reset))).map (fun t =>
      (t.out, t.statusWord, t.rptOrig, t.rptPacked, t.rptHdr)) =
      some (List.replicate 16 0, 0xAA, 0, 0, 16) := by decide +kernel

theorem test_decompress :
    (nextOf (exec .decompress (attached s2Container State.reset))).map (fun t =>
      (t.out, t.statusWord, t.rptOrig, t.rptPacked, t.rptHdr, t.inPtr)) = some (s2Input, 0xDA, 7, 2, 43, 45) := by
  decide +kernel

theorem test_decompress_truncated_header :
    (nextOf (exec .decompress { attached (s2Container.take 10) tree4 with symCount := 10 })).map (fun t =>
      (t.statusWord, t.symCount, t.inPtr, t.arena)) = some (0x686, 10, 10, []) := by decide +kernel

/-! ## The host's side -/

theorem test_register_map_ends :
    regAt 0x038 = some .lkCtrl ∧ regAt 0x068 = some .inPos ∧ regAt 0x070 = none ∧ regAt 0x118 = some (.present 3) ∧
      regAt 0x120 = none ∧ regAt 0xFF8 = some (.freq 255) ∧ regAt 0x1000 = none ∧ regAt 0x004 = none := by decide

theorem test_illegal_word : (nextOf (step (State.reset.withFetchWord 32 0x13))).map State.statusWord = some 0x406 := by
  decide +kernel

theorem test_fetched_command_runs_after_reset :
    (nextOf (step (State.reset.withFetchWord 32 0x10))).map State.statusWord = some 0x0A := by decide +kernel

theorem test_set_key : (hostSetKey State.reset 0x61).readReg (.present 1) = 0x0000000200000000 := by decide +kernel

theorem test_write_lk_ctrl_changes_only_len :
    (State.writeReg { State.reset with lkHit := true, lkSym := 0x63 } 0xFFFFFFFFFFFFFE02 .lkCtrl).readReg .lkCtrl =
      0x63010002 := by decide +kernel

theorem test_byte_lane : (List.range 8).map (byteLane 0x0102030405060708) = [8, 7, 6, 5, 4, 3, 2, 1] := by decide

theorem test_header_integer_bytes : outBytes64 0x0102030405060708 = [8, 7, 6, 5, 4, 3, 2, 1] := by decide

theorem test_status_read_while_busy (h : accessedReg (Config.blockBase + 8) 8 = some .status) :
    (nextOf (hostAct (.read (Config.blockBase + 8) 8) (State.reset.acceptCommand 1))).map (·.hostReplies) =
      some [.value 1] := by
  simp only [hostAct, State.acceptCommand_busy, if_true, hostActBusy, h]
  decide +kernel

/-- POLL stops at the first read that finds BUSY = 0 (30_encoding.md R98), whatever reads were still allowed. -/
theorem test_poll_stops_at_the_first_zero :
    (nextOf (step { State.reset with hostQueue := [.poll 2, .act false .drain] })).map (fun t =>
      (t.hostQueue, t.hostReplies)) = some ([.act false .drain], [.value 0]) := by decide +kernel

/-- RD is no POLL: an early one meets BUSY = 1 and is refused (20_memory.md R75). -/
theorem test_read_does_not_wait (h : accessedReg (Config.blockBase + 0x010) 8 = some .symCount) :
    step { State.reset.acceptCommand 2 with hostQueue := expand ⟨true, 0⟩ (.rd 0x010) } = .refused .busyAccess := by
  simp [step, nextMove, expand, readAt, HostMove.waits, hostMove, hostAct, hostActBusy, h]

theorem test_decompress_duplicate_entry :
    (nextOf (exec .decompress { attached ([2, 0, 0, 0, 0, 0, 0, 0, 3, 0, 0, 0, 0, 0, 0, 0, 0x61, 1, 0, 0, 0, 0, 0, 0, 0,
      0x61, 2, 0, 0, 0, 0, 0, 0, 0]) tree4 with rptHdr := 9 })).map (fun t =>
      (t.statusWord, t.keys, t.symCount, t.rptHdr, t.inPtr)) = some (0x686, [0x61], 0, 9, 34) := by decide +kernel

/-! ## Witnesses: states and operands that meet the hypotheses of the statements -/

/-- The STATUS register is where R22 says, whatever BLOCK_BASE is. -/
theorem witness_status_address : accessedReg (Config.blockBase + 8) 8 = some .status := by
  have h : Config.blockBase + 8 - Config.blockBase = 8 := by omega
  simp only [accessedReg, h]
  rw [if_pos ⟨trivial, by omega⟩]
  decide

theorem witness_DecodeInvertsEncode : (Instr.getbit 255 15).wellFormed = true := by decide

theorem witness_IllegalWordChangesOnlyStatus :
    let s := State.reset.acceptCommand 0x100001
    s.busy = true ∧ HostWaits s ∧ ¬ LegalWord s.cmd := by
  refine ⟨rfl, trivial, ?_⟩
  unfold LegalWord
  decide

theorem witness_StepRunsTheDecodedCommand :
    let s := { State.reset.acceptCommand 0x6311 with hostQueue := [.act false .drain] }
    s.busy = true ∧ HostWaits s ∧ decode s.cmd = .ok (.lookupS2c 0x63) := ⟨rfl, rfl, by decide⟩

theorem witness_StepRunsTheDecodedCommand_poll :
    let s := { State.reset.acceptCommand 0xFF11 with hostQueue := [.poll 0] }
    s.busy = true ∧ HostWaits s ∧ decode s.cmd = .ok (.lookupS2c 0xFF) := ⟨rfl, rfl, by decide⟩

theorem witness_PlacedWordRunsNext : (Instr.lookupS2c 255).wellFormed = true := by decide

theorem witness_IdleMachineKeepsItsState : State.reset.busy = false ∧ State.reset.hostQueue = [] := ⟨rfl, rfl⟩

theorem witness_HostActsBetweenCommands_idle :
    let s := { State.reset with hostQueue := [.act false .drain] }
    s.hostQueue = [.act false .drain] ∧ (s.busy = true → false = true) := by decide

theorem witness_HostActsBetweenCommands_early :
    let s := { State.reset.acceptCommand 1 with hostQueue := [.act true .reset] }
    s.hostQueue = [.act true .reset] ∧ (s.busy = true → true = true) := by decide

theorem witness_HostActsBetweenCommands_poll_ends :
    let s := { State.reset with hostQueue := [.poll 3, .act false .drain] }
    s.hostQueue = .poll 3 :: [.act false .drain] ∧ s.busy = false := by decide

theorem witness_HostActsBetweenCommands_poll_goes_on :
    let s := { State.reset.acceptCommand 1 with hostQueue := [.poll 1] }
    s.hostQueue = .poll (0 + 1) :: [] ∧ s.busy = true := by decide

theorem witness_CommandLineRunsItsCommand :
    let last : HostMove := .act true .drain
    let s : State := { State.reset with hostQueue := expand ⟨false, 2⟩ (.command .ftClear) ++ [last] }
    s.busy = false ∧ Instr.ftClear.wellFormed = true ∧
      s.hostQueue = expand ⟨false, 2⟩ (.command .ftClear) ++ [last] ∧
      ∀ p : State, ∃ t, exec .ftClear p = .next t := ⟨rfl, rfl, rfl, fun _ => ⟨_, rfl⟩⟩

theorem witness_OtherHostAccessesAreRefused_width :
    State.reset.busy = false ∧ ¬ ∃ r : Reg, 4 = 8 ∧ Config.blockBase = Config.blockBase + r.offset :=
  ⟨rfl, fun ⟨_, h, _⟩ => absurd h (by decide)⟩

theorem witness_OtherHostAccessesAreRefused_above_the_window :
    State.reset.busy = false ∧ ¬ ∃ r : Reg, 8 = 8 ∧ Config.blockBase + 0x1000 = Config.blockBase + r.offset := by
  refine ⟨rfl, fun ⟨r, _, h⟩ => ?_⟩
  cases r with
  | lkCode j => have := j.isLt; simp only [Reg.offset] at h; omega
  | present j => have := j.isLt; simp only [Reg.offset] at h; omega
  | freq b => have := b.isLt; simp only [Reg.offset] at h; omega
  | _ => simp only [Reg.offset] at h; omega

theorem witness_ReadReturnsTheRegisterAndChangesNothing : tree4.busy = false := rfl
theorem witness_WriteChangesOnlyItsRegister : tree4.busy = false := rfl

theorem witness_BusyHostMayOnlyReadStatus :
    (State.reset.acceptCommand 1).busy = true ∧ (HostAction.drain ≠ .reset) ∧
      HostAction.drain ≠ .read (Config.blockBase + 0x008) 8 :=
  ⟨rfl, by decide, fun h => HostAction.noConfusion h⟩

theorem witness_AttachDetachAndDrain_fits : State.reset.busy = false ∧ s1Input.length ≤ Config.maxStream := by decide

theorem witness_AttachDetachAndDrain_too_long :
    State.reset.busy = false ∧ Config.maxStream < (List.replicate (2 ^ 56) (0 : Byte)).length := by
  rw [List.length_replicate]
  decide

theorem witness_SetKeyAddsOneKey : tree4.busy = false := rfl
theorem witness_ResetGivesEveryResetValue : tree4.busy = false := rfl

theorem witness_ResetAbandonsThePendingCommand :
    let s := State.reset.acceptCommand 0x40
    s.busy = true ∧ ∃ t, runPending s = .next t := ⟨rfl, _, rfl⟩

theorem witness_ResetAbandonsThePendingCommand_illegal :
    let s := State.reset.acceptCommand 0x100001
    s.busy = true ∧ ¬ LegalWord s.cmd := by
  refine ⟨rfl, ?_⟩
  unfold LegalWord
  decide

theorem witness_StepKeepsTheInvariant :
    Inv (tree4.acceptCommand 0x11) ∧ ∃ t, step (tree4.acceptCommand 0x11) = .next t :=
  ⟨by decide +kernel, _, rfl⟩

theorem witness_ErrInputBeforeAnyChange : tree4.inAvail = false ∧ tree4.treeBuilt = true := by decide

theorem witness_ErrNoTreeBeforeAnyChange : State.reset.treeBuilt = false := rfl

theorem witness_CommandsOnlyAppendToTheOutput : ∃ t, exec .hdrWrite tree4 = .next t := ⟨_, rfl⟩

theorem witness_OnlyTreeCommandsChangeTheTree_command :
    Instr.ftClear ≠ .treeBuild ∧ Instr.ftClear ≠ .compress ∧ Instr.ftClear ≠ .decompress ∧
      ∃ t, exec .ftClear tree4 = .next t := ⟨by decide, by decide, by decide, _, rfl⟩

theorem witness_OnlyTreeCommandsChangeTheTree_host :
    HostAction.setKey 5 ≠ .reset ∧ ∃ t, hostAct (.setKey 5) tree4 = .next t := ⟨by decide, _, rfl⟩

theorem witness_ResultRegistersBelongToTheirCommands_command :
    (∃ t, exec .treeBuild tree4 = .next t) ∧ Instr.treeBuild ≠ .lookupC2s ∧ (∀ sym, Instr.treeBuild ≠ .lookupS2c sym) ∧
      ∀ b idx, Instr.treeBuild ≠ .getbit b idx :=
  ⟨⟨_, rfl⟩, by decide, fun _ h => Instr.noConfusion h, fun _ _ h => Instr.noConfusion h⟩

/-- A write to FREQ[0], which is none of the lookup registers. -/
theorem witness_ResultRegistersBelongToTheirCommands_host :
    let a : HostAction := .write (Config.blockBase + 0x800) 8 1
    a ≠ .reset ∧ (∃ t, hostAct a tree4 = .next t) ∧ (∀ v, a ≠ .write (Config.blockBase + 0x038) 8 v) ∧
      ∀ v, ∀ off ∈ [0x040, 0x048, 0x050, 0x058], a ≠ .write (Config.blockBase + off) 8 v := by
  have reg : accessedReg (Config.blockBase + 0x800) 8 = some (.freq 0) := by
    have h : Config.blockBase + 0x800 - Config.blockBase = 0x800 := by omega
    simp only [accessedReg, h]
    rw [if_pos ⟨trivial, by omega⟩]
    decide
  have idle : tree4.busy = false := rfl
  refine ⟨fun h => HostAction.noConfusion h, ⟨tree4.writeReg 1 (.freq 0), ?_⟩, fun v h => ?_, fun v off hoff h => ?_⟩
  · simp only [hostAct, idle, hostActIdle, reg, Bool.false_eq_true, if_false]
  · simp at h
  · simp only [HostAction.write.injEq, Nat.add_left_cancel_iff] at h
    simp [← h.1] at hoff

/-- The counts of a byte list, symbol by symbol, from the finite list of symbols. -/
theorem forall_symbols {p : Symbol → Bool} (h : allSymbols.all p = true) (b : Symbol) : p b = true :=
  List.all_eq_true.1 h b (mem_allSymbols b)

/-- FREQ one below its last value and one byte to count: the largest count that is not refused. -/
theorem witness_FtScanCountsTheUnreadBytes_fits :
    let s := attached [0x61] (table [(0x61, 0xFFFFFFFFFFFFFFFE)])
    StreamsOk s ∧ s.inAvail = true ∧ (∀ b, (s.freqOf b).toNat + s.unread.count b < 2 ^ 64) ∧
      s.symCount.toNat + s.unread.length < 2 ^ 64 := by
  refine ⟨by decide +kernel, rfl, fun b => ?_, by decide +kernel⟩
  have h : allSymbols.all (fun b =>
      decide (((attached [0x61] (table [(0x61, 0xFFFFFFFFFFFFFFFE)])).freqOf b).toNat +
        (attached [0x61] (table [(0x61, 0xFFFFFFFFFFFFFFFE)])).unread.count b < 2 ^ 64)) = true := by decide +kernel
  exact of_decide_eq_true (forall_symbols h b)

theorem witness_FtScanCountsTheUnreadBytes_overflow :
    let s := attached [0x61] (table [(0x61, 0xFFFFFFFFFFFFFFFF)])
    StreamsOk s ∧ s.inAvail = true ∧ ∃ b, 2 ^ 64 ≤ (s.freqOf b).toNat + s.unread.count b :=
  ⟨by decide +kernel, rfl, 0x61, by decide +kernel⟩

theorem witness_FtScanCountsTheUnreadBytes_sym_count_overflow :
    let s := { attached [0x61] State.reset with symCount := 0xFFFFFFFFFFFFFFFF }
    StreamsOk s ∧ s.inAvail = true ∧ 2 ^ 64 ≤ s.symCount.toNat + s.unread.length :=
  ⟨by decide +kernel, rfl, by decide +kernel⟩

theorem witness_FtScanCountsTheUnreadBytes_no_input : StreamsOk State.reset ∧ State.reset.inAvail = false := by
  decide +kernel

theorem witness_InRewindResetsThePosition :
    (attached s1Input State.reset).inAvail = true ∧ State.reset.inAvail = false := ⟨rfl, rfl⟩

theorem witness_ScannedTableCountsTheSequence :
    (attached s1Input tree4).inAvail = true ∧ (attached s1Input tree4).inData.length ≤ Config.maxStream := by
  decide +kernel

theorem witness_TreeBuildMakesAStrictBinaryTree_empty : popcount State.reset.present = 0 := by decide +kernel
theorem witness_TreeBuildMakesAStrictBinaryTree_one : 1 ≤ popcount (table [(5, 0)]).present := by decide +kernel

theorem witness_LeavesAreTheKeysInAscendingOrder : (table [(0xFF, 0)]).isKey 0xFF = true := by decide +kernel

theorem witness_EachMergeTakesTheTwoLeastNodes : tree4.arena[5]? = some (.internal 6 1 4) := by decide +kernel

/-- Two tables with the same keys and counts, and different counts of an absent symbol. -/
theorem witness_TreeDependsOnTheTableAlone :
    let s := table [(0x61, 4)]
    let s' : State := { s with freq := s.freq.set 7 9, symCount := 3 }
    (∀ b, s.isKey b = s'.isKey b) ∧ ∀ b, s.isKey b = true → s.freqOf b = s'.freqOf b := by
  refine ⟨fun _ => rfl, fun b hb => ?_⟩
  have h : allSymbols.all (fun b => !(table [(0x61, 4)]).isKey b ||
      decide ((table [(0x61, 4)]).freqOf b =
        State.freqOf { table [(0x61, 4)] with freq := (table [(0x61, 4)]).freq.set 7 9, symCount := 3 } b)) = true := by
    decide +kernel
  have := forall_symbols h b
  simp only [hb, Bool.not_true, Bool.false_or] at this
  exact of_decide_eq_true this

theorem witness_CodesAreTheRootToLeafPaths :
    2 ≤ popcount (table [(1, 1), (2, 1)]).present ∧ popcount (table [(1, 1)]).present = 1 ∧
      popcount State.reset.present = 0 := by decide +kernel

theorem witness_CodeSetIsPrefixFreeAndComplete :
    (0x61 : Symbol) ≠ 0x64 ∧ tree4.codes.lookup 0x61 = some [false] ∧
      tree4.codes.lookup 0x64 = some [true, true, false] ∧ 2 ≤ popcount tree4.present := by decide +kernel

theorem witness_CodesAreShorterThanTheKeysAreMany : tree4.codes.lookup 0x63 = some [true, true, true] := by
  decide +kernel

theorem witness_EqualCountsGiveTheBinaryNumerals :
    let s : State := { State.reset with present := BitVec.allOnes 256, freq := Vector.replicate 256 7 }
    ∀ b, s.isKey b = true ∧ s.freqOf b = 7 := by
  intro s b
  have := b.isLt
  exact ⟨by simp only [s, State.isKey, BitVec.getLsbD_allOnes]; simpa using this, by simp [s, State.freqOf]⟩

theorem witness_LookupS2cReadsTheCode :
    Inv tree4 ∧ tree4.treeBuilt = true ∧ tree4.codes.lookup (BitVec.ofNat 8 0x63) = some [true, true, true] ∧
      tree4.codes.lookup (BitVec.ofNat 8 255) = none ∧ Inv State.reset ∧ State.reset.treeBuilt = false :=
  ⟨by decide +kernel, rfl, by decide +kernel, by decide +kernel, by decide +kernel, rfl⟩

theorem witness_LookupC2sReadsTheSymbol_hit :
    let s := { tree4 with lkLen := 3, codev := 6 }
    Inv s ∧ s.treeBuilt = true ∧ s.codes.lookup 0x64 = some [true, true, false] ∧
      [true, true, false].length = s.lkLen.toNat ∧ bitVal [true, true, false] = s.codev.toNat % 2 ^ s.lkLen.toNat := by
  decide +kernel

/-- A code of the tree is one of the four, so none has length 2 and value 3. -/
theorem witness_LookupC2sReadsTheSymbol_miss :
    let s := { tree4 with lkLen := 2, codev := 3 }
    Inv s ∧ s.treeBuilt = true ∧ ¬ ∃ b c, s.codes.lookup b = some c ∧ c.length = s.lkLen.toNat ∧
      bitVal c = s.codev.toNat % 2 ^ s.lkLen.toNat := by
  refine ⟨by decide +kernel, rfl, ?_⟩
  rintro ⟨b, c, hc, hl, hv⟩
  have h : allSymbols.all (fun b => match tree4.codes.lookup b with
      | some c => !(decide (c.length = 2) && decide (bitVal c = 3))
      | none => true) = true := by decide +kernel
  have hb := forall_symbols h b
  have hc' : tree4.codes.lookup b = some c := hc
  rw [hc'] at hb
  simp at hb hl hv
  rcases hb with h | h
  · exact h hl
  · exact h hv

theorem witness_LookupC2sReadsTheSymbol_lengths :
    let none : State := { tree4 with lkLen := 0 }
    let long : State := { tree4 with lkLen := 256 }
    Inv none ∧ Inv long ∧ Config.codeMax < long.lkLen.toNat :=
  ⟨by decide +kernel, by decide +kernel, by decide +kernel⟩

/-- The input of the PACK example (42_pack.md R150), with the codes of its bytes. -/
theorem witness_PackAppendsTheConcatenatedCodes :
    let s := attached s1Input tree4
    Inv s ∧ s.treeBuilt = true ∧ s.inAvail = true ∧ CodesAre s s.unread
      (List.replicate 4 [false] ++ List.replicate 3 [true, false] ++ List.replicate 2 [true, true, true] ++
        [[true, true, false]]) := by
  unfold CodesAre
  decide +kernel

theorem witness_PackStopsAtAByteWithoutACode :
    let s := attached [0x61, 0x65, 0x61] tree4
    Inv s ∧ s.treeBuilt = true ∧ s.inAvail = true ∧ s.unread = [0x61] ++ 0x65 :: [0x61] ∧
      CodesAre s [0x61] [[false]] ∧ s.codes.lookup 0x65 = none := by
  unfold CodesAre
  decide +kernel

theorem witness_GetbitExtractsOneBit : 1 ≤ 8 ∧ 8 ≤ 8 ∧ (9 ≤ 9 ∧ 9 ≤ 15) := by decide

/-- Two symbols, "ad" = 0 110, at the start of 0x60. -/
theorem witness_UnpackDecodesTheExpectedSymbols :
    let s := { attached [0x60, 0xFF] tree4 with symCount := 2 }
    Inv s ∧ s.treeBuilt = true ∧ s.inAvail = true ∧ [0x61#8, 0x64#8].length = s.symCount.toNat ∧
      1 ≤ [0x61#8, 0x64#8].length ∧ CodesAre s [0x61, 0x64] [[false], [true, true, false]] ∧
      [[false], [true, true, false]].flatten <+: streamBits s.unread := by
  unfold CodesAre
  decide +kernel

/-- An empty payload with one symbol expected. -/
theorem witness_UnpackReportsAnExhaustedPayload :
    let s := { attached [] tree4 with symCount := 1 }
    Inv s ∧ s.treeBuilt = true ∧ s.inAvail = true ∧ ([] : List Symbol).length < s.symCount.toNat ∧
      CodesAre s [] [] ∧ streamBits s.unread = ([] : List BitString).flatten ++ [] ∧
      ∀ b c, s.codes.lookup b = some c → ¬ c <+: [] := by
  refine ⟨by decide +kernel, rfl, rfl, by decide +kernel, rfl, by decide +kernel, fun b c hc => ?_⟩
  have h : allSymbols.all (fun b => tree4.codes.lookup b != some []) = true := by decide +kernel
  have hc' : tree4.codes.lookup b = some c := hc
  have hb := forall_symbols h b
  rw [hc'] at hb
  rw [List.prefix_nil]
  rintro rfl
  simp at hb

theorem witness_UnpackOfNothingReadsNothing :
    let s := attached [0x60] tree4
    s.treeBuilt = true ∧ s.inAvail = true ∧ s.symCount = 0 := by decide +kernel

theorem witness_AccumulatorAndTreeWalkAgree : Inv tree4 ∧ tree4.treeBuilt = true := by decide +kernel

theorem witness_HdrReadLoadsTheTable :
    let s := attached (header [(0x62, 1), (0x61, 2)] 3 ++ [0xC0]) State.reset
    StreamsOk s ∧ s.inAvail = true ∧ ([(0x62, 1), (0x61, 2)].map (Prod.fst : Symbol × Word → Symbol)).Nodup ∧
      s.unread = header [(0x62, 1), (0x61, 2)] 3 ++ [0xC0] := by decide +kernel

/-- One input for each of the five ways a header is malformed (44_container.md R185), at the edges of their ranges. -/
theorem witness_HdrReadReportsAMalformedHeader :
    MalformedHeader ([0, 0, 0, 0, 0, 0, 0] : List Byte) [] 7 ∧
      MalformedHeader (le64 257) [] 8 ∧
      MalformedHeader (le64 256 ++ [0, 0, 0, 0, 0, 0, 0]) [] 15 ∧
      MalformedHeader (le64 2 ++ le64 3 ++ entryListBytes [(0x61, 1)] ++ [0x62, 1, 0, 0, 0, 0, 0, 0]) [(0x61, 1)] 33 ∧
      MalformedHeader (le64 2 ++ le64 3 ++ entryListBytes [(0x61, 1)] ++ 0x61 :: (le64 2 ++ [])) [(0x61, 1)] 34 := by
  refine ⟨.countTruncated _ (by decide), ?_, .symbolCountTruncated 256 _ (by decide) (by decide),
    .entryTruncated 2 3 [(0x61, 1)] _ (by decide) (by decide) (by decide) (by decide),
    .duplicate 2 3 [(0x61, 1)] 0x61 2 [] (by decide) (by decide) (by decide) (by decide)⟩
  exact List.append_nil (le64 257) ▸ MalformedHeader.tooManyEntries 257 [] (by decide)

/-- States with such an input: the bytes of a header cut within its entry count. -/
theorem witness_HdrReadReportsAMalformedHeader_state :
    let s := attached [0, 0, 0, 0, 0, 0, 0] tree4
    StreamsOk s ∧ s.inAvail = true ∧ s.unread = [0, 0, 0, 0, 0, 0, 0] ∧ s.inData = [0, 0, 0, 0, 0, 0, 0] := by
  decide +kernel

theorem witness_HeaderRoundTrip :
    let u := attached (header [(0x61, 4)] 4 ++ [1]) tree4
    StreamsOk u ∧ u.inAvail = true ∧ u.unread = header [(0x61, 4)] 4 ++ [1] := by decide +kernel

theorem witness_CompressWritesTheContainer :
    let s := attached s2Input tree4
    s.inAvail = true ∧ s.inData.length ≤ Config.maxStream ∧ s.inPtr = 0 ∧ 1 ≤ s.inData.length := by decide +kernel

theorem witness_CompressEqualsItsComponents :
    let s := attached s2Input tree4
    s.inAvail = true ∧ s.inData.length ≤ Config.maxStream ∧ s.inPtr = 0 := by decide +kernel

/-- The table {a:1, b:1} is held by the state `table` makes of it. -/
theorem table_ab_holds : TableHolds (table [(0x61, 1), (0x62, 1)]) [(0x61, 1), (0x62, 1)] := by
  intro b
  have h : allSymbols.all (fun b =>
      decide (((table [(0x61, 1), (0x62, 1)]).isKey b = true ↔
        b ∈ ([(0x61, 1), (0x62, 1)] : List (Symbol × Word)).map Prod.fst) ∧
      (table [(0x61, 1), (0x62, 1)]).freqOf b =
        (([(0x61, 1), (0x62, 1)] : List (Symbol × Word)).lookup b).getD 0)) = true := by decide +kernel
  exact of_decide_eq_true (forall_symbols h b)

/-- The container of "ab": a is "0", b is "1", payload 0x40 (95_test_vectors.md L2.5). -/
theorem witness_DecompressDecodesTheContainer :
    let es : List (Symbol × Word) := [(0x61, 1), (0x62, 1)]
    let s := attached (header es 2 ++ [0x40]) tree4
    let w := table es
    s.inAvail = true ∧ s.inData.length ≤ Config.maxStream ∧ (es.map Prod.fst).Nodup ∧
      s.inData = header es 2 ++ [0x40] ∧ 1 ≤ (2 : Word).toNat ∧ TableHolds w es ∧
      [0x61#8, 0x62#8].length = (2 : Word).toNat ∧
      CodesAre (treeBuildBody w).complete [0x61, 0x62] [[false], [true]] ∧
      exec .treeBuild w = .next (treeBuildBody w).complete ∧ [[false], [true]].flatten <+: streamBits [0x40] := by
  refine ⟨rfl, by decide +kernel, by decide, rfl, by decide, table_ab_holds, rfl, ?_, rfl, by decide +kernel⟩
  unfold CodesAre
  decide +kernel

theorem witness_DecompressOfNoSymbolsBuildsNoTree :
    let es : List (Symbol × Word) := [(0x61, 1)]
    let s := attached (header es 0 ++ [0x40]) tree4
    s.inAvail = true ∧ s.inData.length ≤ Config.maxStream ∧ (es.map Prod.fst).Nodup ∧
      s.inData = header es 0 ++ [0x40] := by decide +kernel

theorem witness_DecompressInvertsCompress :
    (attached s2Input State.reset).inAvail = true ∧ (attached s2Input State.reset).inData.length ≤ Config.maxStream ∧
      (attached s2Container tree4).inAvail = true ∧ (attached s2Container tree4).inData = s2Container := by
  decide +kernel

/-- The container of "abacaba" without its last byte: the payload has two. -/
theorem witness_TruncatedPayloadIsCorrupt :
    let s := attached s2Input State.reset
    let u := attached (s2Container.take (s2Container.length - 1)) tree4
    s.inAvail = true ∧ 1 ≤ s.inData.length ∧ s.inData.length ≤ Config.maxStream ∧ u.inAvail = true ∧
      (nextOf (exec .compress s)).map (fun t => (t.out, t.rptPacked.toNat)) = some (s2Container, 2) ∧
      u.inData = s2Container.take (s2Container.length - 1) := by decide +kernel

/-- A container of no entries that declares one symbol: nothing is ever matched. -/
theorem witness_TruncatedPayloadIsCorrupt_no_entries :
    let s := attached (header [] 1 ++ [0x40]) tree4
    s.inAvail = true ∧ s.inData.length ≤ Config.maxStream ∧ (([] : List (Symbol × Word)).map Prod.fst).Nodup ∧
      s.inData = header [] 1 ++ [0x40] ∧ TableHolds State.reset [] ∧
      ([] : List Symbol).length < (1 : Word).toNat ∧ CodesAre (treeBuildBody State.reset).complete [] [] ∧
      exec .treeBuild State.reset = .next (treeBuildBody State.reset).complete ∧
      streamBits [0x40] = ([] : List BitString).flatten ++ streamBits [0x40] ∧
      ∀ b c, (treeBuildBody State.reset).complete.codes.lookup b = some c → ¬ c <+: streamBits [0x40] := by
  refine ⟨rfl, by decide +kernel, by decide, rfl, fun b => ?_, by decide, rfl, rfl, rfl, fun b c h => ?_⟩
  · have h : allSymbols.all (fun b => !State.reset.isKey b && decide (State.reset.freqOf b = 0)) = true := by
      decide +kernel
    have := forall_symbols h b
    simp only [Bool.and_eq_true, Bool.not_eq_true', decide_eq_true_eq] at this
    simp [this.1, this.2]
  · have none : (treeBuildBody State.reset).complete.codes = [] := by decide +kernel
    rw [none] at h
    simp at h

theorem witness_WholeOperationsDependOnTheInputAlone :
    let s := attached s2Input State.reset
    let s' := attached s2Input tree4
    s.inAvail = true ∧ s'.inAvail = true ∧ s.inData = s'.inData ∧ s.inData.length ≤ Config.maxStream := by
  decide +kernel

end Sys2Proof.Tests
end

section
/-! PROOFS. The arena TREE_BUILD makes is the arena of a strict binary tree (10_state.md R46, 41_tree.md R120 to R126). -/

namespace Sys2Proof.Machine

/-! ## Records and their children -/

@[simp] theorem Node.hasChild_leaf (k : Nat) (b : Symbol) (f : NodeFreq) : (Node.leaf b f).hasChild k = false := rfl

@[simp] theorem Node.hasChild_internal (k : Nat) (f : NodeFreq) (l r : Nat) :
    (Node.internal f l r).hasChild k = (l == k || r == k) := rfl

@[simp] theorem Node.isLeaf_leaf (b : Symbol) (f : NodeFreq) : (Node.leaf b f).isLeaf = true := rfl

@[simp] theorem Node.isLeaf_internal (f : NodeFreq) (l r : Nat) : (Node.internal f l r).isLeaf = false := rfl

theorem Node.hasChild_of_isLeaf {x : Node} (h : x.isLeaf = true) (k : Nat) : x.hasChild k = false := by
  cases x with
  | leaf => rfl
  | internal => simp at h

theorem childrenOk_of_isLeaf {arena : List Node} {k : Nat} {x : Node} (hx : arena[k]? = some x)
    (h : x.isLeaf = true) : childrenOk arena k = true := by
  cases x with
  | leaf => simp [childrenOk, hx]
  | internal => simp at h

/-- What `childrenOk` says of an internal record. -/
theorem childrenOk_internal {arena : List Node} {k : Nat} {f : NodeFreq} {l r : Nat}
    (hk : arena[k]? = some (.internal f l r)) :
    childrenOk arena k = true ↔
      ∃ x y, arena[l]? = some x ∧ arena[r]? = some y ∧ l < k ∧ r < k ∧ l ≠ r ∧
        f.toNat = x.freq.toNat + y.freq.toNat := by
  simp only [childrenOk, hk]
  cases hl : arena[l]? <;> cases hr : arena[r]? <;> simp [and_assoc]

/-- Only a record after k can have k as a child. -/
theorem hasChild_lt {arena : List Node} {k m : Nat} {x : Node} (hx : arena[m]? = some x)
    (h : childrenOk arena m = true) (hc : x.hasChild k = true) : k < m := by
  cases x with
  | leaf => simp at hc
  | internal f l r =>
    obtain ⟨_, _, _, _, hl, hr, _⟩ := (childrenOk_internal hx).1 h
    simp only [Node.hasChild_internal, Bool.or_eq_true, beq_iff_eq] at hc
    rcases hc with rfl | rfl <;> assumption

/-- Records appended later do not disturb a good record. -/
theorem childrenOk_append {arena : List Node} {k : Nat} (hk : k < arena.length) (h : childrenOk arena k = true)
    (more : List Node) : childrenOk (arena ++ more) k = true := by
  have keep : ∀ {m x}, arena[m]? = some x → (arena ++ more)[m]? = some x := fun hm => by
    rw [List.getElem?_append_left (List.getElem?_eq_some_iff.1 hm).1, hm]
  have hx := List.getElem?_eq_getElem hk
  cases hn : arena[k] with
  | leaf b f => exact childrenOk_of_isLeaf (keep (hx.trans (by rw [hn]))) rfl
  | internal f l r =>
    rw [hn] at hx
    obtain ⟨x, y, hl, hr, hs⟩ := (childrenOk_internal hx).1 h
    exact (childrenOk_internal (keep hx)).2 ⟨x, y, keep hl, keep hr, hs⟩

/-- The merge loop makes internal records only. -/
theorem mergeLoop_filter_isLeaf (fuel : Nat) (q : List QEntry) (arena : List Node) :
    (mergeLoop fuel q arena).filter Node.isLeaf = arena.filter Node.isLeaf := by
  induction fuel generalizing q arena with
  | zero => rfl
  | succ fuel ih =>
    simp only [mergeLoop]
    split
    · rfl
    · split
      · rfl
      · simp [ih]

/-! ## The merge loop's invariant -/

/-- The sum of the frequencies in Q, as numbers. -/
def queueTotal (q : List QEntry) : Nat := (q.map fun e => e.freq.toNat).sum

/-- How often node k stands in Q. -/
def queueCount (q : List QEntry) (k : Nat) : Nat := q.countP fun e => e.idx == k

/-- What holds between Q and the arena before and after every merge: each record is in Q or is the child of exactly one
internal record, never both; Q carries the records' own frequencies; their sum fits NODE_FREQ_W bits; and every internal
record is good. -/
structure MergeInv (q : List QEntry) (arena : List Node) : Prop where
  once : ∀ k, arena.countP (Node.hasChild k) + queueCount q k = if k < arena.length then 1 else 0
  freq : ∀ e ∈ q, ∃ x, arena[e.idx]? = some x ∧ x.freq = e.freq
  total : queueTotal q < 2 ^ 72
  children : ∀ k < arena.length, childrenOk arena k = true

/-- `MergeInv` does not depend on the order in which Q is held. -/
theorem MergeInv.of_perm {q q' : List QEntry} {arena : List Node} (h : MergeInv q arena) (hp : q.Perm q') :
    MergeInv q' arena where
  once k := by rw [queueCount, ← hp.countP_eq]; exact h.once k
  freq e he := h.freq e (hp.mem_iff.2 he)
  total := by rw [queueTotal, ← (hp.map _).sum_eq]; exact h.total
  children := h.children

/-- One merge keeps the invariant: two entries give way to one for a new last record that is their parent. -/
theorem MergeInv.merge {i j : QEntry} {q : List QEntry} {arena : List Node} (h : MergeInv (i :: j :: q) arena) :
    MergeInv (⟨i.freq + j.freq, arena.length⟩ :: q) (arena ++ [.internal (i.freq + j.freq) i.idx j.idx]) := by
  obtain ⟨x, hx, hxf⟩ := h.freq i (by simp)
  obtain ⟨y, hy, hyf⟩ := h.freq j (by simp)
  have hi : i.idx < arena.length := (List.getElem?_eq_some_iff.1 hx).1
  have hj : j.idx < arena.length := (List.getElem?_eq_some_iff.1 hy).1
  have hne : i.idx ≠ j.idx := fun e => by
    have := h.once i.idx
    simp [queueCount, e, hj] at this
    omega
  have htotal : i.freq.toNat + (j.freq.toNat + queueTotal q) < 2 ^ 72 := by simpa [queueTotal] using h.total
  have hsum : (i.freq + j.freq).toNat = i.freq.toNat + j.freq.toNat := by
    rw [BitVec.toNat_add, Nat.mod_eq_of_lt (by omega)]
  have keep : ∀ {m z}, arena[m]? = some z →
      (arena ++ [.internal (i.freq + j.freq) i.idx j.idx])[m]? = some z := fun hm => by
    rw [List.getElem?_append_left (List.getElem?_eq_some_iff.1 hm).1, hm]
  refine ⟨fun k => ?_, fun e he => ?_, ?_, fun k hk => ?_⟩
  · have hk := h.once k
    simp only [queueCount, List.countP_cons, List.countP_append, List.countP_nil, Node.hasChild_internal,
      List.length_append, List.length_cons, List.length_nil, beq_iff_eq, Bool.or_eq_true] at hk ⊢
    split_ifs at hk ⊢ <;> omega
  · rcases List.mem_cons.1 he with rfl | he
    · exact ⟨_, List.getElem?_concat_length, rfl⟩
    · obtain ⟨z, hz, hzf⟩ := h.freq e (by simp [he])
      exact ⟨z, keep hz, hzf⟩
  · simp only [queueTotal, List.map_cons, List.sum_cons] at htotal ⊢
    omega
  · rcases Nat.lt_succ_iff_lt_or_eq.1 (by simpa using hk : k < arena.length + 1) with hk | rfl
    · exact childrenOk_append hk (h.children k hk) _
    · exact (childrenOk_internal List.getElem?_concat_length).2
        ⟨x, y, keep hx, keep hy, hi, hj, hne, by rw [hsum, hxf, hyf]⟩

/-- The loop ends with at most one entry in Q, the invariant kept. -/
theorem MergeInv.mergeLoop {q : List QEntry} {arena : List Node} (fuel : Nat) (h : MergeInv q arena)
    (hq : q.length ≤ fuel + 1) : ∃ q', q'.length ≤ 1 ∧ MergeInv q' (mergeLoop fuel q arena) := by
  induction fuel generalizing q arena with
  | zero => exact ⟨q, hq, h⟩
  | succ fuel ih =>
    cases hi : popMin q with
    | none => exact ⟨q, by simp [popMin_eq_none.1 hi], by simpa [Machine.mergeLoop, hi] using h⟩
    | some p =>
      obtain ⟨i, q₁⟩ := p
      have h₁ := popMin_length hi
      cases hj : popMin q₁ with
      | none =>
        have := popMin_eq_none.1 hj
        exact ⟨q, by simp [h₁, this], by simpa [Machine.mergeLoop, hi, hj] using h⟩
      | some p =>
        obtain ⟨j, q₂⟩ := p
        have h₂ := popMin_length hj
        have hp := (popMin_perm hi).trans ((popMin_perm hj).cons i)
        rw [mergeLoop_merge fuel arena hi hj]
        exact ih (h.of_perm hp).merge (by simp; omega)

/-! ## The start of the loop -/

@[simp] theorem initialQueue_length (leaves : List Node) : (initialQueue leaves).length = leaves.length := by
  simp [initialQueue]

theorem initialQueue_map_idx (leaves : List Node) :
    (initialQueue leaves).map QEntry.idx = List.range leaves.length :=
  List.ext_getElem (by simp) fun k _ _ => by simp [initialQueue]

theorem initialQueue_map_freq (leaves : List Node) : (initialQueue leaves).map QEntry.freq = leaves.map Node.freq :=
  List.ext_getElem (by simp) fun k _ _ => by simp [initialQueue]

theorem queueCount_initialQueue (leaves : List Node) (k : Nat) :
    queueCount (initialQueue leaves) k = if k < leaves.length then 1 else 0 := by
  calc queueCount (initialQueue leaves) k
      = ((initialQueue leaves).map QEntry.idx).count k := by
        simp [queueCount, List.count, List.countP_map, Function.comp_def]
    _ = if k < leaves.length then 1 else 0 := by rw [initialQueue_map_idx, List.count_range]

theorem queueTotal_initialQueue (leaves : List Node) :
    queueTotal (initialQueue leaves) = (leaves.map fun x => x.freq.toNat).sum := by
  have h := congrArg (List.map BitVec.toNat) (initialQueue_map_freq leaves)
  rw [List.map_map, List.map_map] at h
  exact congrArg List.sum h

theorem MergeInv.initial {leaves : List Node} (hl : ∀ x ∈ leaves, x.isLeaf = true)
    (ht : (leaves.map fun x => x.freq.toNat).sum < 2 ^ 72) : MergeInv (initialQueue leaves) leaves where
  once k := by
    have : leaves.countP (Node.hasChild k) = 0 := by
      rw [List.countP_eq_zero]
      exact fun x hx => by simp [Node.hasChild_of_isLeaf (hl x hx)]
    rw [this, queueCount_initialQueue, Nat.zero_add]
  freq e he := by
    obtain ⟨k, hk, rfl⟩ := List.mem_mapIdx.1 he
    exact ⟨leaves[k], by simp, rfl⟩
  total := by rwa [queueTotal_initialQueue]
  children k hk := childrenOk_of_isLeaf (List.getElem?_eq_getElem hk) (hl _ (List.getElem_mem hk))

/-! ## The finished arena -/

/-- With at most one entry left in Q, every record but the last is a child of exactly one internal record. -/
theorem MergeInv.childOnce {q : List QEntry} {arena : List Node} (h : MergeInv q arena) (hq : q.length ≤ 1)
    {k : Nat} (hk : k < arena.length - 1) : arena.countP (Node.hasChild k) = 1 := by
  have hroot : arena.countP (Node.hasChild (arena.length - 1)) = 0 := by
    rw [List.countP_eq_zero]
    intro x hx hc
    obtain ⟨m, hm, rfl⟩ := List.mem_iff_getElem.1 hx
    have := hasChild_lt (List.getElem?_eq_getElem hm) (h.children m hm) hc
    omega
  have hlast := h.once (arena.length - 1)
  have hthis := h.once k
  rw [hroot, if_pos (by omega)] at hlast
  rw [if_pos (by omega)] at hthis
  match q, hq with
  | [], _ => simp [queueCount] at hlast
  | [e], _ =>
    have he : e.idx = arena.length - 1 := by simpa [queueCount] using hlast
    have : queueCount [e] k = 0 := by simp [queueCount, he]; omega
    omega

/-- Building from at most 256 leaves in ascending symbol order gives the arena of a tree with those leaves. -/
theorem arenaOk_buildArena {leaves : List Node} (hl : ∀ x ∈ leaves, x.isLeaf = true) (hn : leaves.length ≤ 256)
    (ha : (leaves.filterMap Node.symbol?).Pairwise (fun a b => a.toNat < b.toNat))
    (ht : (leaves.map fun x => x.freq.toNat).sum < 2 ^ 72) : ArenaOk (buildArena leaves) := by
  have hcount : leafCount (buildArena leaves) = leaves.length := by
    rw [leafCount, buildArena, mergeLoop_filter_isLeaf, List.filter_eq_self.2 hl]
  have htake : (buildArena leaves).take leaves.length = leaves :=
    (List.prefix_iff_eq_take.1 (mergeLoop_extends _ _ _)).symm
  obtain ⟨q, hq, h⟩ := (MergeInv.initial hl ht).mergeLoop leaves.length (by simp)
  refine ⟨hcount ▸ hn, ?_, ?_, ?_, h.children, fun k hk => h.childOnce hq hk⟩
  · rw [hcount, buildArena, mergeLoop_length _ _ _ (by simp), initialQueue_length]; omega
  · rw [hcount, htake]; exact List.all_eq_true.2 hl
  · rwa [hcount, htake]

theorem buildArena_length (leaves : List Node) : (buildArena leaves).length = 2 * leaves.length - 1 := by
  rw [buildArena, mergeLoop_length _ _ _ (by simp), initialQueue_length]; omega

/-! ## The leaves of a table -/

@[simp] theorem State.leafNodes_length (s : State) : s.leafNodes.length = popcount s.present := by
  rw [State.leafNodes, List.length_map, State.keys_length]

theorem State.leafNodes_isLeaf (s : State) : ∀ x ∈ s.leafNodes, x.isLeaf = true := by
  simp [State.leafNodes]

theorem State.leafNodes_symbols (s : State) : s.leafNodes.filterMap Node.symbol? = s.keys := by
  simp [State.leafNodes, List.filterMap_map, Function.comp_def, Node.symbol?]

/-- 256 counts of 64 bits have a sum of at most 72 bits (41_tree.md R126). -/
theorem State.leafNodes_total (s : State) : (s.leafNodes.map fun x => x.freq.toNat).sum < 2 ^ 72 := by
  have hle : (s.leafNodes.map fun x => x.freq.toNat).sum ≤ s.leafNodes.length • (2 ^ 64 - 1) := by
    rw [← List.length_map (fun x : Node => x.freq.toNat)]
    refine List.sum_le_card_nsmul _ _ fun n hn => ?_
    simp only [State.leafNodes, List.map_map, List.mem_map] at hn
    obtain ⟨b, _, rfl⟩ := hn
    have := (s.freqOf b).isLt
    simp only [Function.comp_apply, Node.freq, BitVec.toNat_setWidth]
    omega
  have := popcount_le s.present
  simp only [State.leafNodes_length, smul_eq_mul] at hle
  omega

/-- The arena TREE_BUILD makes from any table is that of a built tree. -/
theorem State.arenaOk_buildArena (s : State) : ArenaOk (buildArena s.leafNodes) :=
  Machine.arenaOk_buildArena s.leafNodes_isLeaf (by simpa using popcount_le s.present)
    (by simpa [State.leafNodes_symbols] using s.keys_ascending) s.leafNodes_total

/-! ## TREE_BUILD -/

/-- Settles O32: with n leaves the merge loop makes n − 1 internal records and keeps `MergeInv`. -/
theorem treeBuildMakesAStrictBinaryTree : Obligations.TreeBuildMakesAStrictBinaryTree := by
  intro s
  have hlen : (buildArena s.leafNodes).length = 2 * popcount s.present - 1 := by
    rw [buildArena_length, State.leafNodes_length]
  refine ⟨(treeBuildBody s).complete, rfl, rfl, fun h => ?_, fun h => ?_, s.arenaOk_buildArena⟩
  · have hnil : buildArena s.leafNodes = [] := List.length_eq_zero_iff.1 (by omega)
    simp [treeBuildBody, hnil, rootOf]
  · have hroot : rootOf (buildArena s.leafNodes) = some (2 * popcount s.present - 2) := by
      rw [rootOf, if_neg (by omega), hlen]; rfl
    simp [treeBuildBody, hlen, hroot]

end Sys2Proof.Machine
end

section
/-! PROOFS. The host's port: the register map, what each register read returns and what each write changes
(10_state.md R22 to R34, 20_memory.md R71 to R73, 30_encoding.md R98). -/

namespace Sys2Proof.Machine

/-! ## The register map (R22) -/

theorem regOfDoubleword_freq (sym : Symbol) : regOfDoubleword (0x100 + sym.toNat) = some (.freq sym) := by
  have := sym.isLt
  unfold regOfDoubleword
  split
  case h_19 => simp; omega
  all_goals omega

/-- Each register is found at its listed offset. -/
theorem regAt_offset (r : Reg) : regAt r.offset = some r := by
  cases r with
  | lkCode j => revert j; decide
  | present j => revert j; decide
  | freq sym =>
    have hm : (0x800 + 8 * sym.toNat) % 8 = 0 := by omega
    have hd : (0x800 + 8 * sym.toNat) / 8 = 0x100 + sym.toNat := by omega
    rw [Reg.offset, regAt, if_pos hm, hd, regOfDoubleword_freq]
  | _ => rfl

theorem offset_of_regOfDoubleword {d : Nat} {r : Reg} (h : regOfDoubleword d = some r) : r.offset = 8 * d := by
  unfold regOfDoubleword at h
  split at h
  case h_19 =>
    split at h
    next hd =>
      obtain rfl := Option.some.inj h
      rw [Reg.offset, BitVec.toNat_ofNat]
      omega
    next => simp at h
  all_goals obtain rfl := Option.some.inj h; rfl

theorem regAt_eq_some {off : Nat} {r : Reg} : regAt off = some r ↔ off = r.offset := by
  constructor
  · intro h
    unfold regAt at h
    split at h
    · have := offset_of_regOfDoubleword h
      omega
    · simp at h
  · rintro rfl
    exact regAt_offset r

/-- Settles O11: the two directions of `regAt_eq_some`, and the listed offsets as they stand. -/
theorem registerMapIsTheSpecs : Obligations.RegisterMapIsTheSpecs :=
  ⟨fun _ _ => regAt_eq_some, rfl, fun _ => rfl⟩

/-! ## Accesses to a register (R71 to R73) -/

@[simp] theorem accessedReg_offset (r : Reg) : accessedReg (Config.blockBase + r.offset) 8 = some r := by
  rw [accessedReg, if_pos ⟨rfl, by omega⟩, Nat.add_sub_cancel_left, regAt_offset]

/-- The register an access names is the one at its address. -/
theorem accessedReg_eq_some_iff {addr width : Nat} {r : Reg} :
    accessedReg addr width = some r ↔ width = 8 ∧ addr = Config.blockBase + r.offset := by
  constructor
  · intro h
    obtain ⟨hw, hb, hr⟩ := accessedReg_eq_some h
    have := regAt_eq_some.1 hr
    exact ⟨hw, by omega⟩
  · rintro ⟨rfl, rfl⟩
    exact accessedReg_offset r

theorem hostAct_idle {s : State} (h : s.busy = false) (a : HostAction) : hostAct a s = hostActIdle a s := by
  simp [hostAct, h]

theorem hostAct_read_reg {s : State} (h : s.busy = false) (r : Reg) :
    hostAct (.read (Config.blockBase + r.offset) 8) s = .next (s.reply (.value (s.readReg r))) := by
  simp [hostAct_idle h, hostActIdle]

theorem hostAct_write_reg {s : State} (h : s.busy = false) (r : Reg) (v : Word) :
    hostAct (.write (Config.blockBase + r.offset) 8 v) s = .next (s.writeReg v r) := by
  simp [hostAct_idle h, hostActIdle]

/-! ## Register values, bit by bit -/

theorem getLsbD_append_ofBool {n : Nat} (x : BitVec n) (b : Bool) (k : Nat) :
    (x ++ BitVec.ofBool b).getLsbD k = if k = 0 then b else x.getLsbD (k - 1) := by
  rw [BitVec.getLsbD_append]
  cases k <;> simp

theorem getLsbD_zero_append {m n : Nat} (x : BitVec n) (k : Nat) : (0#m ++ x).getLsbD k = x.getLsbD k := by
  rw [BitVec.getLsbD_append, BitVec.getLsbD_zero]
  split
  · rfl
  · exact (x.getLsbD_of_ge k (by omega)).symm

/-- The fields of STATUS, each at its bits (R24). -/
theorem statusWord_getLsbD (s : State) (k : Nat) :
    s.statusWord.getLsbD k =
      match k with
      | 0 => s.busy
      | 1 => s.done
      | 2 => s.err
      | 3 => s.treeBuilt
      | 4 => s.rootValid
      | 5 => s.s2cValid
      | 6 => s.c2sValid
      | 7 => s.inAvail
      | k + 8 => s.errcode.getLsbD k := by
  unfold State.statusWord
  simp only [getLsbD_append_ofBool, getLsbD_zero_append]
  match k with
  | 0 | 1 | 2 | 3 | 4 | 5 | 6 | 7 | k + 8 => rfl

theorem statusWord_errcode (s : State) : s.statusWord.extractLsb' 8 8 = s.errcode :=
  BitVec.eq_of_getLsbD_eq fun k hk => by
    rw [BitVec.getLsbD_extractLsb', Nat.add_comm, statusWord_getLsbD]
    simp [hk]

theorem statusWord_reserved (s : State) {k : Nat} (hk : 16 ≤ k) : s.statusWord.getLsbD k = false := by
  obtain ⟨m, rfl⟩ : ∃ m, k = m + 8 := ⟨k - 8, by omega⟩
  rw [statusWord_getLsbD]
  exact s.errcode.getLsbD_of_ge m (by omega)

/-- The fields of LK_CTRL, each at its bits (R28). -/
theorem lkCtrlWord_getLsbD (s : State) (k : Nat) :
    s.lkCtrlWord.getLsbD k =
      if k < 9 then s.lkLen.getLsbD k else if k = 16 then s.lkHit
      else if 24 ≤ k then s.lkSym.getLsbD (k - 24) else false := by
  have hsym := getLsbD_zero_append (m := 32) s.lkSym (k - 24)
  unfold State.lkCtrlWord
  simp only [BitVec.getLsbD_append (m := 9), BitVec.getLsbD_append (m := 7), getLsbD_append_ofBool,
    BitVec.getLsbD_zero, Nat.sub_sub, Nat.reduceAdd]
  grind

theorem lkCtrlWord_len (s : State) : s.lkCtrlWord.extractLsb' 0 9 = s.lkLen :=
  BitVec.eq_of_getLsbD_eq fun k hk => by
    rw [BitVec.getLsbD_extractLsb', lkCtrlWord_getLsbD, Nat.zero_add, if_pos hk]
    simp [hk]

theorem lkCtrlWord_sym (s : State) : s.lkCtrlWord.extractLsb' 24 8 = s.lkSym :=
  BitVec.eq_of_getLsbD_eq fun k hk => by
    rw [BitVec.getLsbD_extractLsb', lkCtrlWord_getLsbD, if_neg (by omega), if_neg (by omega), if_pos (by omega),
      Nat.add_sub_cancel_left]
    simp [hk]

theorem lkCtrlWord_reserved (s : State) {k : Nat} (hk : (9 ≤ k ∧ k ≤ 15) ∨ (17 ≤ k ∧ k ≤ 23) ∨ 32 ≤ k) :
    s.lkCtrlWord.getLsbD k = false := by
  rw [lkCtrlWord_getLsbD, if_neg (by omega), if_neg (by omega)]
  split
  · exact s.lkSym.getLsbD_of_ge _ (by omega)
  · rfl

/-- TBL_COUNT is the number of keys (R26): it fits its register. -/
theorem readReg_tblCount_toNat (s : State) : (s.readReg .tblCount).toNat = s.keys.length := by
  have := popcount_le s.present
  rw [State.readReg, BitVec.toNat_ofNat, State.keys_length, Nat.mod_eq_of_lt (by omega)]

theorem readReg_gbResult_getLsbD (s : State) (k : Nat) :
    (s.readReg .gbResult).getLsbD k = (decide (k < 64) && s.gbResult.getLsbD k) :=
  BitVec.getLsbD_setWidth ..

theorem wordSlice_getLsbD_of_lt (w : BitVec 256) (j : Fin 4) {k : Nat} (hk : k < 64) :
    (wordSlice w j).getLsbD k = w.getLsbD (64 * j.val + k) := by
  rw [wordSlice_getLsbD, decide_eq_true hk, Bool.true_and]

/-- Settles O13: a read only lengthens the host's answers, and the registers made of fields are read off bit by bit. -/
theorem readReturnsTheRegisterAndChangesNothing : Obligations.ReadReturnsTheRegisterAndChangesNothing := by
  intro s hs
  have hst := statusWord_getLsbD s
  refine ⟨hostAct_read_reg hs, rfl, rfl, rfl, rfl, rfl, rfl, fun _ => rfl, readReg_tblCount_toNat s, fun j k hk => ?_,
    ⟨readReg_gbResult_getLsbD s 0, fun k hk => ?_⟩,
    ⟨hst 0, hst 1, hst 2, hst 3, hst 4, hst 5, hst 6, hst 7, statusWord_errcode s,
      fun k hk => statusWord_reserved s hk⟩,
    lkCtrlWord_len s, lkCtrlWord_getLsbD s 16, lkCtrlWord_sym s, fun k hk => lkCtrlWord_reserved s hk⟩
  · exact ⟨wordSlice_getLsbD_of_lt s.present j hk, wordSlice_getLsbD_of_lt s.codev j hk⟩
  · rw [readReg_gbResult_getLsbD, s.gbResult.getLsbD_of_ge k hk, Bool.and_false]

/-! ## Register writes (R73) -/

/-- A 64-bit word shifted to the place of the j-th register of a 256-bit value. -/
theorem getLsbD_wordInPlace (u : Word) (j : Fin 4) {k : Nat} (hk : k < 256) :
    (u.setWidth 256 <<< (64 * j.val)).getLsbD k = if k / 64 = j.val then u.getLsbD (k % 64) else false := by
  simp only [BitVec.getLsbD_shiftLeft, BitVec.getLsbD_setWidth, hk, decide_true, Bool.true_and]
  split
  next h =>
    have hm : k - 64 * j.val = k % 64 := by omega
    have hlow : ¬ k < 64 * j.val := by omega
    have h256 : k % 64 < 256 := by omega
    simp [hm, hlow, h256]
  next h =>
    rcases Nat.lt_or_ge k (64 * j.val) with hlow | hlow
    · simp [hlow]
    · rw [u.getLsbD_of_ge _ (by omega), Bool.and_false, Bool.and_false]

/-- Writing the j-th register of a 256-bit value replaces bits 64j+63:64j and no other (R29, R31). -/
theorem setWordSlice_getLsbD (w : BitVec 256) (j : Fin 4) (v : Word) {k : Nat} (hk : k < 256) :
    (setWordSlice w j v).getLsbD k = if k / 64 = j.val then v.getLsbD (k % 64) else w.getLsbD k := by
  have hm : k % 64 < 64 := Nat.mod_lt _ (by omega)
  rw [setWordSlice, BitVec.getLsbD_or, BitVec.getLsbD_and, BitVec.getLsbD_not, getLsbD_wordInPlace _ _ hk,
    getLsbD_wordInPlace _ _ hk, BitVec.getLsbD_allOnes]
  split <;> simp only [hk, hm, decide_true, Bool.not_true, Bool.not_false, Bool.and_true, Bool.and_false,
    Bool.false_or, Bool.or_false]

theorem writeReg_freq_freqOf (s : State) (v : Word) (b c : Symbol) :
    (s.writeReg v (.freq b)).freqOf c = if c = b then v else s.freqOf c :=
  s.setEntry_freqOf b c v

/-- Settles O14: the write is `State.writeReg`, and a register held in a wider value keeps the bits of the others. -/
theorem writeChangesOnlyItsRegister : Obligations.WriteChangesOnlyItsRegister := by
  intro s v hs
  have hw (r : Reg) := hostAct_write_reg hs r v
  refine ⟨hw .cmd, hw .symCount, hw .lkCtrl, fun r hr => (hw r).trans ?_,
    fun b => ⟨_, hw (.freq b), rfl, writeReg_freq_freqOf s v b⟩,
    fun j => ⟨_, hw (.present j), rfl, fun k hk => setWordSlice_getLsbD _ _ _ hk⟩,
    fun j => ⟨_, hw (.lkCode j), rfl, fun k hk => setWordSlice_getLsbD _ _ _ hk⟩⟩
  fin_cases hr <;> rfl

/-! ## SETKEY (30_encoding.md R98) -/

/-- The word SETKEY writes back has the bit of `b` set and the others as they were read. -/
theorem hostSetKey_isKey (s : State) (b c : Symbol) : (hostSetKey s b).isKey c = (s.isKey c || c == b) := by
  have heq : (c == b) = decide (c.toNat = b.toNat) := by
    rw [Bool.eq_iff_iff, beq_iff_eq, decide_eq_true_iff, BitVec.toNat_eq]
  simp only [hostSetKey, presentReg, State.writeReg, State.readReg, State.isKey, State.reply_present]
  rw [setWordSlice_getLsbD _ _ _ c.isLt, BitVec.getLsbD_or, wordSlice_getLsbD, BitVec.getLsbD_shiftLeft,
    BitVec.getLsbD_one, heq]
  split
  next h =>
    replace h : c.toNat / 64 = b.toNat / 64 := h
    have h64 : c.toNat % 64 < 64 := by omega
    have hc : 64 * (b.toNat / 64) + c.toNat % 64 = c.toNat := by omega
    have hbit : (!decide (c.toNat % 64 < b.toNat % 64) && decide (c.toNat % 64 - b.toNat % 64 = 0)) =
        decide (c.toNat = b.toNat) := by
      rw [Bool.eq_iff_iff]
      simp only [Bool.and_eq_true, Bool.not_eq_true', decide_eq_true_eq, decide_eq_false_iff_not]
      omega
    simp [h64, hc, ← hbit]
  next h =>
    have : c.toNat ≠ b.toNat := fun e => h (by rw [e])
    simp [this]

/-- Settles O17: with BUSY = 0 the action is `hostSetKey`, which writes no other register. -/
theorem setKeyAddsOneKey : Obligations.SetKeyAddsOneKey :=
  fun s b hs => ⟨hostSetKey s b, hostAct_idle hs _, rfl, hostSetKey_isKey s b⟩

end Sys2Proof.Machine
end

section
/-! PROOFS. What the commands and the host's actions leave unchanged (10_state.md R28, R40, R42, R47, R57): a frame for
every command body, from which the frame of `exec` follows, and the effect of every host action. -/

namespace Sys2Proof.Machine

/-! ## What a body can end with -/

/-- Whatever state the body ends with, at its end or at a `raise`, satisfies `P`. -/
def Body.Ends (P : State → Prop) : Body → Prop
  | .done s => P s
  | .raised _ s => P s
  | .refused _ => True

@[simp] theorem Body.ends_done {P : State → Prop} {s : State} : (Body.done s).Ends P ↔ P s := Iff.rfl

@[simp] theorem Body.ends_raised {P : State → Prop} {e : EngineError} {s : State} :
    (Body.raised e s).Ends P ↔ P s := Iff.rfl

@[simp] theorem Body.ends_refused {P : State → Prop} {r : Refusal} : (Body.refused r).Ends P := trivial

theorem Body.Ends.imp {P Q : State → Prop} {b : Body} (hb : b.Ends P) (h : ∀ t, P t → Q t) : b.Ends Q := by
  cases b with
  | done s => exact h s hb
  | raised e s => exact h s hb
  | refused r => trivial

theorem Body.Ends.and {P Q : State → Prop} {b : Body} (hP : b.Ends P) (hQ : b.Ends Q) :
    b.Ends fun t => P t ∧ Q t := by
  cases b with
  | done s => exact ⟨hP, hQ⟩
  | raised e s => exact ⟨hP, hQ⟩
  | refused r => trivial

/-- A sequence of bodies: the first may raise, so its states must satisfy the conclusion too. -/
theorem Body.Ends.andThen {P Q : State → Prop} {b : Body} {k : State → Body} (hb : b.Ends P)
    (hraise : ∀ t, P t → Q t) (hk : ∀ t, P t → (k t).Ends Q) : (b.andThen k).Ends Q := by
  cases b with
  | done s => exact hk s hb
  | raised e s => exact hraise s hb
  | refused r => trivial

theorem ends_requireInput {P : State → Prop} {body : State → Body} {s : State} (hs : P s) (hb : (body s).Ends P) :
    (requireInput body s).Ends P := by
  unfold requireInput
  split <;> assumption

theorem ends_requireTree {P : State → Prop} {body : State → Body} {s : State} (hs : P s)
    (hb : s.treeBuilt = true → (body s).Ends P) : (requireTree body s).Ends P := by
  unfold requireTree
  split
  · exact hb ‹_›
  · exact hs

/-- What a command answers, from what its body ends with. -/
theorem Body.Ends.finish_next {P : State → Prop} {b : Body} {t : State} (hb : b.Ends P) (h : b.finish = .next t) :
    ∃ u, P u ∧ (t = u.complete ∨ ∃ e, t = u.raise e) := by
  rcases Body.finish_next h with ⟨u, rfl, ht⟩ | ⟨e, u, rfl, ht⟩
  · exact ⟨u, hb, .inl ht⟩
  · exact ⟨u, hb, .inr ⟨e, ht⟩⟩

/-- The body of each command, with its preconditions. -/
def bodyOf : Instr → State → Body
  | .ftClear, s => .done (ftClearBody s)
  | .ftScan, s => requireInput ftScanBody s
  | .inRewind, s => requireInput (fun s => .done s.rewind) s
  | .treeBuild, s => .done (treeBuildBody s)
  | .lookupS2c sym, s => requireTree (fun s => .done (lookupS2cBody (symbolOperand sym) s)) s
  | .lookupC2s, s => requireTree (fun s => .done (lookupC2sBody s)) s
  | .pack, s => requireTree (requireInput packBody) s
  | .getbit b idx, s => getbitBody (symbolOperand b) idx s
  | .unpack, s => requireTree (requireInput unpackBody) s
  | .hdrWrite, s => .done (hdrWriteBody s)
  | .hdrRead, s => requireInput hdrReadBody s
  | .compress, s => requireInput compressBody s
  | .decompress, s => requireInput decompressBody s

/-- A command's meaning is its body, finished. -/
theorem exec_eq_finish (i : Instr) (s : State) : exec i s = (bodyOf i s).finish := by
  cases i <;> rfl

/-! ## Steps over the table, the streams and the reports -/

/-- `t` differs from `s` at most in the table, SYM_COUNT, the reports, in_ptr and OUT, which only grew; and in_ptr is
still in the stream. -/
structure DataStep (s t : State) : Prop where
  eq : t = { s with
    symCount := t.symCount, rptOrig := t.rptOrig, rptPacked := t.rptPacked, rptHdr := t.rptHdr
    present := t.present, freq := t.freq, inPtr := t.inPtr, out := t.out }
  out : s.out <+: t.out
  inPtr : StreamsOk s → t.inPtr.toNat ≤ s.inData.length

/-- in_ptr after reading within the stream is within the stream. -/
theorem consume_inPtr_le {s : State} (h : StreamsOk s) {k : Nat} (hk : k ≤ s.unread.length) :
    (s.consume k).inPtr.toNat ≤ s.inData.length := by
  rw [State.consume_inPtr_toNat h hk]
  have := h.1
  rw [State.unread_length] at hk
  omega

theorem ftClearBody_dataStep (s : State) : DataStep s (ftClearBody s) :=
  ⟨rfl, List.prefix_rfl, fun h => h.1⟩

theorem rewind_dataStep (s : State) : DataStep s s.rewind :=
  ⟨rfl, List.prefix_rfl, fun _ => Nat.zero_le _⟩

theorem reports_dataStep (s : State) (orig packed : Word) :
    DataStep s { s with rptOrig := orig, rptPacked := packed } :=
  ⟨rfl, List.prefix_rfl, fun h => h.1⟩

theorem hdrWriteBody_dataStep (s : State) : DataStep s (hdrWriteBody s) :=
  ⟨rfl, List.prefix_append _ _, fun h => h.1⟩

/-- The loop of FT_SCAN counts every byte and changes only the table. -/
theorem scanLoop_some {bs : List Byte} {cnt m : Nat} {s t : State} (h : scanLoop bs cnt s = some (m, t)) :
    m = cnt + bs.length ∧ ∃ p f, t = { s with present := p, freq := f } := by
  induction bs generalizing cnt s with
  | nil =>
    simp only [scanLoop, Option.some.injEq, Prod.mk.injEq] at h
    exact ⟨h.1.symm, _, _, h.2.symm⟩
  | cons b bs ih =>
    simp only [scanLoop] at h
    split at h
    · simp at h
    · obtain ⟨hm, p, f, ht⟩ := ih h
      exact ⟨by rw [hm, List.length_cons]; omega, p, f, ht⟩

theorem ftScanBody_dataStep (s : State) : (ftScanBody s).Ends (DataStep s) := by
  unfold ftScanBody
  split
  next => trivial
  next cnt t h =>
    obtain ⟨hcnt, p, f, rfl⟩ := scanLoop_some h
    exact ⟨rfl, List.prefix_rfl, fun hs => consume_inPtr_le hs (by omega)⟩

/-- The loop of HDR_READ changes only the table, and leaves no more bytes than it was given. -/
theorem readEntries_spec (n : Nat) (unread : List Byte) (s : State) :
    (readEntries n unread s).2.1.length ≤ unread.length ∧
      ∃ p f, (readEntries n unread s).1 = { s with present := p, freq := f } := by
  induction n generalizing unread s with
  | zero => exact ⟨le_rfl, _, _, rfl⟩
  | succ n ih =>
    cases unread with
    | nil => exact ⟨le_rfl, _, _, rfl⟩
    | cons sym unread =>
      simp only [readEntries]
      split
      · exact ⟨Nat.zero_le _, _, _, rfl⟩
      · rename_i f rest hread
        obtain ⟨_, rfl⟩ := inRead64_some hread
        split
        · exact ⟨by simp; omega, _, _, rfl⟩
        · obtain ⟨hlen, p, f', ht⟩ := ih (unread.drop 8) (s.setEntry sym f)
          exact ⟨hlen.trans (by simp; omega), p, f', ht⟩

/-- A state that differs from `s` in the table, SYM_COUNT and RPT_HDR, and has read `k` of the unread bytes. -/
theorem dataStep_read (s : State) {k : Nat} (hk : k ≤ s.unread.length) (p : BitVec 256) (f : Vector Word 256)
    (c h : Word) :
    DataStep s { s.consume k with present := p, freq := f, symCount := c, rptHdr := h } :=
  ⟨rfl, List.prefix_rfl, fun hs => consume_inPtr_le hs hk⟩

theorem hdrReadBody_dataStep (s : State) : (hdrReadBody s).Ends (DataStep s) := by
  have all : DataStep s (s.clearTable.consume s.unread.length) := dataStep_read s le_rfl _ _ _ _
  unfold hdrReadBody
  simp only
  split
  · exact all
  · rename_i n unread₁ hn
    obtain ⟨hlen, rfl⟩ := inRead64_some hn
    split
    · exact dataStep_read s hlen _ _ _ _
    · split
      · exact all
      · rename_i count unread₂ _
        obtain ⟨_, p, f, ht⟩ := readEntries_spec n.toNat unread₂ s.clearTable
        split
        next t rest hread =>
          rw [hread] at ht
          obtain rfl := ht
          exact dataStep_read s (Nat.sub_le _ _) _ _ _ _
        next t rest hread =>
          rw [hread] at ht
          obtain rfl := ht
          exact dataStep_read s (Nat.sub_le _ _) _ _ _ _

/-! ## The lazy fills, the packer and the unpacker -/

/-- The loop of PACK counts no more bytes than there are, and one fewer where it stops at a byte without a code. -/
theorem packLoop_count {codeOf : Symbol → Option BitString} {bs : List Byte} {p q : Packer} {count m : Nat}
    {ended : Bool} (h : packLoop codeOf bs p count = (q, m, ended)) :
    m + (if ended then 0 else 1) ≤ count + bs.length := by
  induction bs generalizing p count with
  | nil =>
    simp only [packLoop, Prod.mk.injEq] at h
    obtain ⟨_, rfl, rfl⟩ := h
    simp
  | cons b bs ih =>
    simp only [packLoop] at h
    split at h
    · simp only [Prod.mk.injEq] at h
      obtain ⟨_, rfl, rfl⟩ := h
      simp
    · exact (ih h).trans (by simp only [List.length_cons]; omega)

theorem packBody_dataStep (s : State) : (packBody s).Ends (DataStep s.ensureS2c) := by
  unfold packBody
  simp only
  split
  next p count h =>
    exact ⟨rfl, List.prefix_append _ _, fun hs => consume_inPtr_le hs (by simpa using packLoop_count h)⟩
  next p count h =>
    exact ⟨rfl, List.prefix_append _ _, fun hs => consume_inPtr_le hs (by simpa using packLoop_count h)⟩

theorem unpackLoop_consumed (symbolFor : BitString → Option Symbol) (n : Nat) (bs : List Byte) (u : Unpacker)
    (consumed : Nat) : (unpackLoop symbolFor n bs u consumed).2 ≤ consumed + bs.length := by
  induction bs generalizing u consumed with
  | nil => exact le_rfl
  | cons b bs ih =>
    simp only [unpackLoop, List.length_cons]
    split
    · simp
    · exact (ih _ _).trans (by omega)

theorem unpackBody_dataStep (s : State) : (unpackBody s).Ends (DataStep s.ensureC2s) := by
  have hle := unpackLoop_consumed s.ensureC2s.symbolFor s.ensureC2s.symCount.toNat s.ensureC2s.unread Unpacker.start 0
  unfold unpackBody
  simp only
  split
  · exact ⟨rfl, List.prefix_rfl, fun h => h.1⟩
  · split <;> exact ⟨rfl, List.prefix_append _ _, fun hs => consume_inPtr_le hs (by simpa using hle)⟩

/-- LOOKUP_S2C writes nothing but the lookup registers and the table it fills. -/
theorem lookupS2cBody_eq (sym : Symbol) (s : State) : ∃ hit len v,
    lookupS2cBody sym s = { s.ensureS2c with lkSym := sym, lkHit := hit, lkLen := len, codev := v } := by
  unfold lookupS2cBody
  simp only
  split <;> exact ⟨_, _, _, rfl⟩

/-- LOOKUP_C2S writes nothing but HIT, SYM and the table it fills. -/
theorem lookupC2sBody_eq (s : State) : ∃ hit sym,
    lookupC2sBody s = { s.ensureC2s with lkHit := hit, lkSym := sym } := by
  unfold lookupC2sBody
  simp only
  split <;> exact ⟨_, _, rfl⟩

theorem getbitBody_ends {P : State → Prop} (b : Byte) (idx : Nat) {s : State} (hs : P s)
    (hbit : ∀ bit, P { s with gbResult := bit }) : (getbitBody b idx s).Ends P := by
  unfold getbitBody
  split
  · exact hbit _
  · exact hs

/-! ## Frames -/

/-- The groups of registers and tables that some commands write and others leave alone. -/
inductive Part where
  /-- STATUS.BUSY, DONE, ERR and ERRCODE (R24). -/
  | status
  /-- The arena, ROOT, TREE_BUILT and ROOT_VALID (R45, R47). -/
  | tree
  /-- The two code tables and their flags (R50 to R52). -/
  | codes
  /-- LK_CTRL and CODEV (R28, R29). -/
  | lookup
  /-- GB_RESULT (R32). -/
  | bit
  deriving DecidableEq

/-- That part of the state is the same in `t` as in `s`. -/
def Part.Same : Part → State → State → Prop
  | .status, s, t => t.busy = s.busy ∧ t.done = s.done ∧ t.err = s.err ∧ t.errcode = s.errcode
  | .tree, s, t => t.arena = s.arena ∧ t.root = s.root ∧ t.treeBuilt = s.treeBuilt ∧ t.rootValid = s.rootValid
  | .codes, s, t => t.s2c = s.s2c ∧ t.s2cValid = s.s2cValid ∧ t.c2s = s.c2s ∧ t.c2sValid = s.c2sValid
  | .lookup, s, t => t.lkLen = s.lkLen ∧ t.lkHit = s.lkHit ∧ t.lkSym = s.lkSym ∧ t.codev = s.codev
  | .bit, s, t => t.gbResult = s.gbResult

theorem Part.Same.trans {p : Part} {s t u : State} (h₁ : p.Same s t) (h₂ : p.Same t u) : p.Same s u := by
  cases p <;> simp_all [Part.Same]

/-- What a command leaves unchanged: CMD, the input bytes, IN_AVAIL and the host's own state always, and every part but
those of `w`; OUT only grows. -/
structure Frame (w : List Part) (s t : State) : Prop where
  out : s.out <+: t.out
  inData : t.inData = s.inData
  inAvail : t.inAvail = s.inAvail
  cmd : t.cmd = s.cmd
  hostQueue : t.hostQueue = s.hostQueue
  hostReplies : t.hostReplies = s.hostReplies
  draws : t.draws = s.draws
  kept : ∀ p, p ∉ w → p.Same s t

theorem Frame.refl (w : List Part) (s : State) : Frame w s s :=
  ⟨List.prefix_rfl, rfl, rfl, rfl, rfl, rfl, rfl, fun p _ => by cases p <;> simp [Part.Same]⟩

theorem Frame.mono {w w' : List Part} {s t : State} (h : Frame w s t) (hw : w ⊆ w') : Frame w' s t :=
  { h with kept := fun p hp => h.kept p fun hp' => hp (hw hp') }

theorem Frame.trans {w : List Part} {s t u : State} (h₁ : Frame w s t) (h₂ : Frame w t u) : Frame w s u where
  out := h₁.out.trans h₂.out
  inData := h₂.inData.trans h₁.inData
  inAvail := h₂.inAvail.trans h₁.inAvail
  cmd := h₂.cmd.trans h₁.cmd
  hostQueue := h₂.hostQueue.trans h₁.hostQueue
  hostReplies := h₂.hostReplies.trans h₁.hostReplies
  draws := h₂.draws.trans h₁.draws
  kept p hp := (h₁.kept p hp).trans (h₂.kept p hp)

/-- A step over the table and the streams leaves every part alone. -/
theorem DataStep.frame {s t : State} (h : DataStep s t) (w : List Part) : Frame w s t := by
  obtain ⟨heq, hout, _⟩ := h
  refine ⟨hout, ?_, ?_, ?_, ?_, ?_, ?_, fun p _ => ?_⟩
  case refine_7 => rw [heq]; cases p <;> simp [Part.Same]
  all_goals rw [heq]

/-- An update that leaves the streams alone: only the written parts remain to be named. -/
theorem Frame.of_kept {w : List Part} {s t : State}
    (hd : (t.out, t.inData, t.inAvail, t.cmd, t.hostQueue, t.hostReplies, t.draws) =
      (s.out, s.inData, s.inAvail, s.cmd, s.hostQueue, s.hostReplies, s.draws))
    (hk : ∀ p, p ∉ w → p.Same s t) : Frame w s t := by
  simp only [Prod.mk.injEq] at hd
  obtain ⟨hout, hdata, havail, hcmd, hqueue, hreplies, hdraws⟩ := hd
  exact ⟨hout ▸ List.prefix_rfl, hdata, havail, hcmd, hqueue, hreplies, hdraws, hk⟩

theorem complete_frame (s : State) : Frame [.status] s s.complete :=
  .of_kept rfl fun p hp => by cases p <;> simp_all [Part.Same]

theorem raise_frame (s : State) (e : EngineError) : Frame [.status] s (s.raise e) :=
  .of_kept rfl fun p hp => by cases p <;> simp_all [Part.Same]

theorem treeBuildBody_frame (s : State) : Frame [.tree, .codes] s (treeBuildBody s) :=
  .of_kept rfl fun p hp => by cases p <;> simp_all [Part.Same, treeBuildBody]

theorem invalidate_frame (s : State) : Frame [.tree, .codes] s s.invalidate :=
  .of_kept rfl fun p hp => by cases p <;> simp_all [Part.Same]

theorem ensureS2c_frame (s : State) : Frame [.codes] s s.ensureS2c :=
  .of_kept (by simp) fun p hp => by cases p <;> simp_all [Part.Same]

theorem ensureC2s_frame (s : State) : Frame [.codes] s s.ensureC2s :=
  .of_kept (by simp) fun p hp => by cases p <;> simp_all [Part.Same]

theorem packBody_frame (s : State) : (packBody s).Ends (Frame [.codes] s) :=
  (packBody_dataStep s).imp fun _ h => (ensureS2c_frame s).trans (h.frame _)

theorem unpackBody_frame (s : State) : (unpackBody s).Ends (Frame [.codes] s) :=
  (unpackBody_dataStep s).imp fun _ h => (ensureC2s_frame s).trans (h.frame _)

theorem lookupS2cBody_frame (sym : Symbol) (s : State) : Frame [.codes, .lookup] s (lookupS2cBody sym s) := by
  obtain ⟨hit, len, v, h⟩ := lookupS2cBody_eq sym s
  rw [h]
  refine ((ensureS2c_frame s).mono (by simp)).trans (.of_kept rfl fun p hp => ?_)
  cases p <;> simp_all [Part.Same]

theorem lookupC2sBody_frame (s : State) : Frame [.codes, .lookup] s (lookupC2sBody s) := by
  obtain ⟨hit, sym, h⟩ := lookupC2sBody_eq s
  rw [h]
  refine ((ensureC2s_frame s).mono (by simp)).trans (.of_kept rfl fun p hp => ?_)
  cases p <;> simp_all [Part.Same]

theorem compressBody_frame (s : State) : (compressBody s).Ends (Frame [.tree, .codes] s) := by
  have hstart : Frame [.tree, .codes] s (ftClearBody s.invalidate.rewind) :=
    (invalidate_frame s).trans (((rewind_dataStep _).frame _).trans ((ftClearBody_dataStep _).frame _))
  refine Body.Ends.andThen ((ftScanBody_dataStep _).imp fun t h => hstart.trans (h.frame _)) (fun _ h => h)
    fun t ht => ?_
  have hpack : Frame [.tree, .codes] s (hdrWriteBody (treeBuildBody t)).rewind :=
    ht.trans ((treeBuildBody_frame t).trans (((hdrWriteBody_dataStep _).frame _).trans ((rewind_dataStep _).frame _)))
  refine Body.Ends.andThen ((packBody_frame _).imp fun u h => hpack.trans (h.mono (by simp))) (fun _ h => h)
    fun u hu => ?_
  exact hu.trans ((reports_dataStep u u.symCount u.rptPacked).frame _)

theorem decompressBody_frame (s : State) : (decompressBody s).Ends (Frame [.tree, .codes] s) := by
  have hstart : Frame [.tree, .codes] s s.invalidate.rewind :=
    (invalidate_frame s).trans ((rewind_dataStep _).frame _)
  refine Body.Ends.andThen ((hdrReadBody_dataStep _).imp fun t h => hstart.trans (h.frame _)) (fun _ h => h)
    fun t ht => ?_
  split
  · exact ht.trans ((reports_dataStep t 0 0).frame _)
  · exact (unpackBody_frame _).imp fun u h => ht.trans ((treeBuildBody_frame t).trans (h.mono (by simp)))

/-! ## Every command -/

/-- The parts a command's body may write. -/
def writesOf : Instr → List Part
  | .ftClear | .ftScan | .inRewind | .hdrWrite | .hdrRead => []
  | .treeBuild | .compress | .decompress => [.tree, .codes]
  | .lookupS2c _ | .lookupC2s => [.codes, .lookup]
  | .pack | .unpack => [.codes]
  | .getbit _ _ => [.bit]

theorem bodyOf_frame (i : Instr) (s : State) : (bodyOf i s).Ends (Frame (writesOf i) s) := by
  have hs : Frame (writesOf i) s s := .refl _ s
  cases i with
  | ftClear => exact (ftClearBody_dataStep s).frame _
  | ftScan => exact ends_requireInput hs ((ftScanBody_dataStep s).imp fun _ h => h.frame _)
  | inRewind => exact ends_requireInput (body := fun s => .done s.rewind) hs ((rewind_dataStep s).frame _)
  | treeBuild => exact treeBuildBody_frame s
  | lookupS2c sym =>
    exact ends_requireTree (body := fun s => .done (lookupS2cBody _ s)) hs fun _ => lookupS2cBody_frame _ s
  | lookupC2s =>
    exact ends_requireTree (body := fun s => .done (lookupC2sBody s)) hs fun _ => lookupC2sBody_frame s
  | pack => exact ends_requireTree hs fun _ => ends_requireInput hs (packBody_frame s)
  | getbit b idx =>
    exact getbitBody_ends _ idx hs fun bit => .of_kept rfl fun p hp => by cases p <;> simp_all [Part.Same, writesOf]
  | unpack => exact ends_requireTree hs fun _ => ends_requireInput hs (unpackBody_frame s)
  | hdrWrite => exact (hdrWriteBody_dataStep s).frame _
  | hdrRead => exact ends_requireInput hs ((hdrReadBody_dataStep s).imp fun _ h => h.frame _)
  | compress => exact ends_requireInput hs (compressBody_frame s)
  | decompress => exact ends_requireInput hs (decompressBody_frame s)

/-- The frame of every command: besides STATUS only the parts its body writes. -/
theorem exec_frame {i : Instr} {s t : State} (h : exec i s = .next t) : Frame (.status :: writesOf i) s t := by
  rw [exec_eq_finish] at h
  obtain ⟨u, hu, ht⟩ := (bodyOf_frame i s).finish_next h
  have hend : Frame [.status] u t := by
    rcases ht with rfl | ⟨e, rfl⟩
    · exact complete_frame u
    · exact raise_frame u e
  exact (hu.mono (by simp)).trans (hend.mono (by simp))

/-- Settles O25: the part of `exec_frame` that holds of every command. -/
theorem commandsOnlyAppendToTheOutput : Obligations.CommandsOnlyAppendToTheOutput := by
  intro i s t h
  obtain ⟨hout, hdata, havail, hcmd, hqueue, hreplies, hdraws, _⟩ := exec_frame h
  exact ⟨hout, hdata, havail, hcmd, hqueue, hreplies, hdraws⟩

/-! ## Every host action -/

/-- Everything a host action can do, case by case. -/
inductive HostEffect (s : State) : HostAction → State → Prop
  | read (addr width : Nat) (r : HostReply) : HostEffect s (.read addr width) (s.reply r)
  | write (r : Reg) (v : Word) : HostEffect s (.write (Config.blockBase + r.offset) 8 v) (s.writeReg v r)
  | attach (bytes : List Byte) : bytes.length ≤ Config.maxStream →
      HostEffect s (.attach bytes) { s with inData := bytes, inPtr := 0, inAvail := true }
  | detach : HostEffect s .detach { s with inAvail := false, inData := [], inPtr := 0 }
  | drain : HostEffect s .drain { s.reply (.bytes s.out) with out := [] }
  | reset : HostEffect s .reset (hostReset s)
  | setKey (sym : Symbol) : HostEffect s (.setKey sym) (hostSetKey s sym)

theorem hostActBusy_effect {a : HostAction} {s t : State} (h : hostActBusy a s = .next t) : HostEffect s a t := by
  cases a with
  | read addr width =>
    simp only [hostActBusy] at h
    split at h
    · obtain rfl := Host.Outcome.next.inj h; exact .read _ _ _
    · simp at h
  | reset => obtain rfl := Host.Outcome.next.inj h; exact .reset
  | _ => simp [hostActBusy] at h

theorem hostActIdle_effect {a : HostAction} {s t : State} (h : hostActIdle a s = .next t) : HostEffect s a t := by
  cases a with
  | read addr width =>
    simp only [hostActIdle] at h
    split at h
    · obtain rfl := Host.Outcome.next.inj h; exact .read _ _ _
    · simp at h
  | write addr width v =>
    simp only [hostActIdle] at h
    split at h
    next r hr =>
      obtain ⟨rfl, rfl⟩ := accessedReg_eq_some_iff.1 hr
      obtain rfl := Host.Outcome.next.inj h; exact .write r v
    next => simp at h
  | attach bytes =>
    simp only [hostActIdle] at h
    split at h
    · obtain rfl := Host.Outcome.next.inj h; exact .attach bytes ‹_›
    · simp at h
  | detach => obtain rfl := Host.Outcome.next.inj h; exact .detach
  | drain => obtain rfl := Host.Outcome.next.inj h; exact .drain
  | reset => obtain rfl := Host.Outcome.next.inj h; exact .reset
  | setKey sym => obtain rfl := Host.Outcome.next.inj h; exact .setKey sym

theorem hostAct_effect {a : HostAction} {s t : State} (h : hostAct a s = .next t) : HostEffect s a t := by
  unfold hostAct at h
  split at h
  · exact hostActBusy_effect h
  · exact hostActIdle_effect h

/-- No register write touches the tree (R47). -/
theorem writeReg_tree (s : State) (v : Word) (r : Reg) : Part.Same .tree s (s.writeReg v r) := by
  cases r <;> exact ⟨rfl, rfl, rfl, rfl⟩

theorem hostEffect_tree {a : HostAction} {s t : State} (ha : a ≠ .reset) (h : HostEffect s a t) :
    Part.Same .tree s t := by
  cases h with
  | write r v => exact writeReg_tree s v r
  | reset => exact absurd rfl ha
  | _ => exact ⟨rfl, rfl, rfl, rfl⟩

/-- Settles O26: the tree is a part that only three bodies write, and no host action but reset. -/
theorem onlyTreeCommandsChangeTheTree : Obligations.OnlyTreeCommandsChangeTheTree := by
  refine ⟨fun i s t h₁ h₂ h₃ h => (exec_frame h).kept .tree ?_,
    fun a s t ha h => hostEffect_tree ha (hostAct_effect h)⟩
  cases i <;> simp_all [writesOf]

/-- No register write touches HIT, SYM or GB_RESULT (R28, R32, R73). -/
theorem writeReg_results (s : State) (v : Word) (r : Reg) :
    (s.writeReg v r).lkHit = s.lkHit ∧ (s.writeReg v r).lkSym = s.lkSym ∧ (s.writeReg v r).gbResult = s.gbResult := by
  cases r <;> exact ⟨rfl, rfl, rfl⟩

theorem writeReg_lkLen (s : State) (v : Word) {r : Reg} (h : r ≠ .lkCtrl) : (s.writeReg v r).lkLen = s.lkLen := by
  cases r with
  | lkCtrl => exact absurd rfl h
  | _ => rfl

theorem writeReg_codev (s : State) (v : Word) {r : Reg} (h : ∀ j, r ≠ .lkCode j) :
    (s.writeReg v r).codev = s.codev := by
  cases r with
  | lkCode j => exact absurd rfl (h j)
  | _ => rfl

theorem lkCode_offset_mem (j : Fin 4) : (Reg.lkCode j).offset ∈ [0x040, 0x048, 0x050, 0x058] := by
  revert j; decide

/-- Settles O27: the lookup registers and GB_RESULT are parts of `writesOf`, and the host reaches them only by a
register write. -/
theorem resultRegistersBelongToTheirCommands : Obligations.ResultRegistersBelongToTheirCommands := by
  refine ⟨fun i s t h => ⟨fun h₁ h₂ => (exec_frame h).kept .lookup ?_, fun h₁ => (exec_frame h).kept .bit ?_⟩,
    fun a s t ha h => ?_⟩
  · cases i <;> simp_all [writesOf]
  · cases i <;> simp_all [writesOf]
  · cases hostAct_effect h with
    | write r v =>
      obtain ⟨hhit, hsym, hbit⟩ := writeReg_results s v r
      refine ⟨hhit, hsym, hbit, fun hne => writeReg_lkLen s v ?_, fun hne => writeReg_codev s v fun j => ?_⟩
      · rintro rfl; exact hne v rfl
      · rintro rfl; exact hne v _ (lkCode_offset_mem j) rfl
    | reset => exact absurd rfl ha
    | _ => exact ⟨rfl, rfl, rfl, fun _ => rfl, fun _ => rfl⟩

end Sys2Proof.Machine
end

section
/-! PROOFS. The invariant holds at reset and every step keeps it (10_state.md R24, R40, R45, R46, R50, R51, R53). -/

namespace Sys2Proof.Machine

/-! ## The part of the invariant that holds inside a command -/

/-- The invariant without STATUS: what holds between the bodies of a command too. -/
def DataInv (s : State) : Prop := StreamsOk s ∧ TreeOk s ∧ CodeTablesOk s

theorem Inv.data {s : State} (h : Inv s) : DataInv s := ⟨h.1, h.2.2⟩

theorem arenaOk_nil : ArenaOk [] := by simp [ArenaOk, leafCount]

/-- The empty tree with no code table meets the invariant, built or not. -/
theorem treeOk_empty {s : State} (harena : s.arena = []) (hroot : s.root = none) (hvalid : s.rootValid = false)
    (hs2c : s.s2cValid = false) (hc2s : s.c2sValid = false) : TreeOk s ∧ CodeTablesOk s := by
  have hok : ArenaOk s.arena := harena ▸ arenaOk_nil
  refine ⟨⟨fun _ => ⟨harena, hs2c, hc2s⟩, ?_, ?_, hok⟩, ?_, ?_⟩
  · simp [harena, hroot, rootOf]
  · simp [hroot, hvalid]
  · simp [hs2c]
  · simp [hc2s]

/-- A step over the table and the streams keeps the tree and the code tables, and in_ptr stays in the stream. -/
theorem DataStep.dataInv {s t : State} (h : DataStep s t) (hs : DataInv s) : DataInv t := by
  obtain ⟨hstreams, htree, hcodes⟩ := hs
  have hptr := h.inPtr hstreams
  rw [h.eq]
  exact ⟨⟨hptr, hstreams.2⟩, htree, hcodes⟩

theorem invalidate_dataInv {s : State} (h : StreamsOk s) : DataInv s.invalidate :=
  ⟨h, treeOk_empty rfl rfl rfl rfl rfl⟩

/-- The built tree is that of an arena that meets `ArenaOk`, and both code tables are discarded (R53). -/
theorem treeBuildBody_dataInv {s : State} (h : StreamsOk s) : DataInv (treeBuildBody s) :=
  ⟨h, ⟨fun hb => absurd hb Bool.noConfusion, rfl, rfl, s.arenaOk_buildArena⟩,
    fun hv => absurd hv Bool.noConfusion, fun hv => absurd hv Bool.noConfusion⟩

/-- Filling the symbol→code table of a built tree. -/
theorem ensureS2c_dataInv {s : State} (h : DataInv s) (hb : s.treeBuilt = true) : DataInv s.ensureS2c := by
  obtain ⟨hstreams, ⟨_, hroot, hvalid, harena⟩, hcodes⟩ := h
  unfold State.ensureS2c
  split
  · exact ⟨hstreams, ⟨by simp [hb], hroot, hvalid, harena⟩, hcodes⟩
  · exact ⟨hstreams, ⟨by simp [hb], hroot, hvalid, harena⟩, fun _ => rfl, hcodes.2⟩

/-- Filling the code→symbol table of a built tree. -/
theorem ensureC2s_dataInv {s : State} (h : DataInv s) (hb : s.treeBuilt = true) : DataInv s.ensureC2s := by
  obtain ⟨hstreams, ⟨_, hroot, hvalid, harena⟩, hcodes⟩ := h
  unfold State.ensureC2s
  split
  · exact ⟨hstreams, ⟨by simp [hb], hroot, hvalid, harena⟩, hcodes⟩
  · exact ⟨hstreams, ⟨by simp [hb], hroot, hvalid, harena⟩, hcodes.1, fun _ => rfl⟩

theorem packBody_dataInv {s : State} (h : DataInv s) (hb : s.treeBuilt = true) : (packBody s).Ends DataInv :=
  (packBody_dataStep s).imp fun _ ht => ht.dataInv (ensureS2c_dataInv h hb)

theorem unpackBody_dataInv {s : State} (h : DataInv s) (hb : s.treeBuilt = true) : (unpackBody s).Ends DataInv :=
  (unpackBody_dataStep s).imp fun _ ht => ht.dataInv (ensureC2s_dataInv h hb)

theorem lookupS2cBody_dataInv {s : State} (h : DataInv s) (hb : s.treeBuilt = true) (sym : Symbol) :
    DataInv (lookupS2cBody sym s) := by
  obtain ⟨hit, len, v, heq⟩ := lookupS2cBody_eq sym s
  rw [heq]
  exact ensureS2c_dataInv h hb

theorem lookupC2sBody_dataInv {s : State} (h : DataInv s) (hb : s.treeBuilt = true) : DataInv (lookupC2sBody s) := by
  obtain ⟨hit, sym, heq⟩ := lookupC2sBody_eq s
  rw [heq]
  exact ensureC2s_dataInv h hb

theorem compressBody_dataInv {s : State} (h : DataInv s) : (compressBody s).Ends DataInv := by
  have hstart : DataInv (ftClearBody s.invalidate.rewind) :=
    (ftClearBody_dataStep _).dataInv ((rewind_dataStep _).dataInv (invalidate_dataInv h.1))
  refine Body.Ends.andThen ((ftScanBody_dataStep _).imp fun t ht => ht.dataInv hstart) (fun _ ht => ht)
    fun t ht => ?_
  have hpack : DataInv (hdrWriteBody (treeBuildBody t)).rewind :=
    (rewind_dataStep _).dataInv ((hdrWriteBody_dataStep _).dataInv (treeBuildBody_dataInv ht.1))
  exact Body.Ends.andThen (packBody_dataInv hpack rfl) (fun _ hu => hu) fun u hu =>
    (reports_dataStep u u.symCount u.rptPacked).dataInv hu

theorem decompressBody_dataInv {s : State} (h : DataInv s) : (decompressBody s).Ends DataInv := by
  have hstart : DataInv s.invalidate.rewind := (rewind_dataStep _).dataInv (invalidate_dataInv h.1)
  refine Body.Ends.andThen ((hdrReadBody_dataStep _).imp fun t ht => ht.dataInv hstart) (fun _ ht => ht)
    fun t ht => ?_
  split
  · exact (reports_dataStep t 0 0).dataInv ht
  · exact unpackBody_dataInv (treeBuildBody_dataInv ht.1) rfl

/-! ## Every command -/

theorem bodyOf_dataInv (i : Instr) {s : State} (h : DataInv s) : (bodyOf i s).Ends DataInv := by
  cases i with
  | ftClear => exact (ftClearBody_dataStep s).dataInv h
  | ftScan => exact ends_requireInput h ((ftScanBody_dataStep s).imp fun _ ht => ht.dataInv h)
  | inRewind => exact ends_requireInput (body := fun s => .done s.rewind) h ((rewind_dataStep s).dataInv h)
  | treeBuild => exact treeBuildBody_dataInv h.1
  | lookupS2c sym =>
    exact ends_requireTree (body := fun s => .done (lookupS2cBody _ s)) h fun hb => lookupS2cBody_dataInv h hb _
  | lookupC2s =>
    exact ends_requireTree (body := fun s => .done (lookupC2sBody s)) h fun hb => lookupC2sBody_dataInv h hb
  | pack => exact ends_requireTree h fun hb => ends_requireInput h (packBody_dataInv h hb)
  | getbit b idx => exact getbitBody_ends _ idx h fun _ => h
  | unpack => exact ends_requireTree h fun hb => ends_requireInput h (unpackBody_dataInv h hb)
  | hdrWrite => exact (hdrWriteBody_dataStep s).dataInv h
  | hdrRead => exact ends_requireInput h ((hdrReadBody_dataStep s).imp fun _ ht => ht.dataInv h)
  | compress => exact ends_requireInput h (compressBody_dataInv h)
  | decompress => exact ends_requireInput h (decompressBody_dataInv h)

/-- The codes of R221 are 1 to 7. -/
theorem errorCode_bounds (e : EngineError) : 1 ≤ (errorCode e).toNat ∧ (errorCode e).toNat ≤ 7 := by
  cases e <;> decide

/-- A completion leaves ERR and ERRCODE as the body found them (R228, log 20). -/
theorem DataInv.inv_complete {s u : State} (h : DataInv u) (hs : StatusOk s) (hu : Part.Same .status s u) :
    Inv u.complete := by
  obtain ⟨_, hzero, hcode⟩ := hs
  obtain ⟨_, _, herr, herrcode⟩ := hu
  rw [← herr, ← herrcode] at hzero hcode
  exact ⟨h.1, ⟨fun hb => absurd hb Bool.noConfusion, hzero, hcode⟩, h.2⟩

theorem statusOk_raise (s : State) (e : EngineError) : StatusOk (s.raise e) :=
  ⟨fun hb => absurd hb Bool.noConfusion, fun he => absurd he Bool.noConfusion, fun _ => errorCode_bounds e⟩

theorem DataInv.inv_raise {s : State} (h : DataInv s) (e : EngineError) : Inv (s.raise e) :=
  ⟨h.1, statusOk_raise s e, h.2⟩

/-- Every command keeps the invariant: its body keeps `DataInv` and STATUS, and its end sets STATUS. -/
theorem exec_inv {i : Instr} {s t : State} (hs : Inv s) (h : exec i s = .next t) : Inv t := by
  rw [exec_eq_finish] at h
  obtain ⟨u, ⟨hframe, hu⟩, ht⟩ := ((bodyOf_frame i s).and (bodyOf_dataInv i hs.data)).finish_next h
  rcases ht with rfl | ⟨e, rfl⟩
  · exact hu.inv_complete hs.2.1 (hframe.kept .status (by cases i <;> simp [writesOf]))
  · exact hu.inv_raise e

theorem runPending_inv {s t : State} (hs : Inv s) (h : runPending s = .next t) : Inv t := by
  rcases runPending_cases s with ⟨i, _, hrun⟩ | ⟨e, _, hrun⟩
  · exact exec_inv hs (hrun ▸ h)
  · obtain rfl := Host.Outcome.next.inj (hrun ▸ h)
    exact hs.data.inv_raise _

/-! ## Every host action -/

/-- Settles O20: nothing attached, no error, and the empty tree. -/
theorem invariantHoldsAtReset : Obligations.InvariantHoldsAtReset :=
  ⟨by simp [StreamsOk, State.reset], by simp [StatusOk, State.reset], treeOk_empty rfl rfl rfl rfl rfl⟩

theorem hostReset_inv (s : State) : Inv (hostReset s) := by
  unfold hostReset
  split <;> exact invariantHoldsAtReset

theorem writeReg_inv {s : State} (h : Inv s) (v : Word) (r : Reg) : Inv (s.writeReg v r) := by
  cases r with
  | cmd => exact ⟨h.1, ⟨fun _ => ⟨rfl, rfl⟩, fun _ => rfl, fun he => absurd he Bool.noConfusion⟩, h.2.2⟩
  | _ => exact h

theorem hostEffect_inv {a : HostAction} {s t : State} (hs : Inv s) (h : HostEffect s a t) : Inv t := by
  cases h with
  | read addr width r => exact hs
  | write r v => exact writeReg_inv hs v r
  | attach bytes hlen => exact ⟨⟨Nat.zero_le _, hlen, fun he => absurd he Bool.noConfusion⟩, hs.2⟩
  | detach => exact ⟨⟨Nat.zero_le _, Nat.zero_le _, fun _ => rfl⟩, hs.2⟩
  | drain => exact hs
  | reset => exact hostReset_inv s
  | setKey sym => exact writeReg_inv (s := s.reply _) hs _ _

theorem hostMove_inv {m : HostMove} {s t : State} (hs : Inv s) (h : hostMove m s = .next t) : Inv t := by
  cases m with
  | act early a => exact hostEffect_inv hs (hostAct_effect h)
  | poll n =>
    cases hb : s.busy with
    | false => obtain rfl := Host.Outcome.next.inj ((pollRead_of_idle n hb).symm.trans h); exact hs
    | true => obtain rfl := Host.Outcome.next.inj ((pollRead_of_busy n hb).symm.trans h); exact hs

/-- Settles O21: a step is the pending command, the idle step or a move of the host, and each keeps the invariant. -/
theorem stepKeepsTheInvariant : Obligations.StepKeepsTheInvariant := by
  intro s t hs h
  rcases step_cases s with ⟨_, _, hstep⟩ | ⟨_, _, hstep⟩ | ⟨m, rest, _, _, hstep⟩ <;> rw [hstep] at h
  · exact runPending_inv hs h
  · exact Host.Outcome.next.inj h ▸ hs
  · exact hostMove_inv (s := { s with hostQueue := rest }) hs h

end Sys2Proof.Machine
end

section
/-! PROOFS. What the host may do and when: refused accesses, the busy port and the stream actions (20_memory.md R71,
R75, R76). -/

namespace Sys2Proof.Machine

/-! ## Refused accesses (R71) -/

/-- An access that is not an 8-byte one at a register's address names no register. -/
theorem accessedReg_eq_none {addr width : Nat} (h : ¬ ∃ r : Reg, width = 8 ∧ addr = Config.blockBase + r.offset) :
    accessedReg addr width = none := by
  rw [Option.eq_none_iff_forall_ne_some]
  exact fun r hr => h ⟨r, accessedReg_eq_some_iff.1 hr⟩

/-- Settles O12: with BUSY = 0 a host access that names no register is refused, whether it reads or writes. -/
theorem otherHostAccessesAreRefused : Obligations.OtherHostAccessesAreRefused := by
  intro s addr width v hs h
  simp [hostAct_idle hs, hostActIdle, accessedReg_eq_none h]

/-! ## The busy port (R75) -/

theorem hostAct_busy {s : State} (h : s.busy = true) (a : HostAction) : hostAct a s = hostActBusy a s := by
  simp [hostAct, h]

theorem hostActBusy_read_status (s : State) :
    hostActBusy (.read (Config.blockBase + 0x008) 8) s = .next (s.reply (.value s.statusWord)) :=
  if_pos (accessedReg_offset .status)

/-- Only a read of STATUS and a reset are admitted while a command is pending. -/
theorem hostActBusy_refused (s : State) {a : HostAction} (hreset : a ≠ .reset)
    (hstatus : a ≠ .read (Config.blockBase + 0x008) 8) : hostActBusy a s = .refused .busyAccess := by
  cases a with
  | read addr width =>
    refine if_neg fun h => hstatus ?_
    obtain ⟨rfl, rfl⟩ := accessedReg_eq_some_iff.1 h
    rfl
  | reset => exact absurd rfl hreset
  | _ => rfl

/-- Settles O15: the two cases of the busy port. -/
theorem busyHostMayOnlyReadStatus : Obligations.BusyHostMayOnlyReadStatus := by
  intro s a hs
  rw [hostAct_busy hs, hostAct_busy hs]
  exact ⟨hostActBusy_read_status s, hostActBusy_refused s⟩

/-! ## Attach, Detach and Drain (R76) -/

/-- Settles O16: with BUSY = 0 each stream action is its arm of `hostActIdle`, and Attach splits at MAX_STREAM. -/
theorem attachDetachAndDrain : Obligations.AttachDetachAndDrain := by
  intro s bytes hs
  have hact (a : HostAction) : hostAct a s = hostActIdle a s := hostAct_idle hs a
  exact ⟨fun hlen => (hact _).trans (if_pos hlen), fun hlen => (hact _).trans (if_neg (by omega)),
    hact .detach, hact .drain⟩

end Sys2Proof.Machine
end

section
/-! PROOFS. Header integers byte by byte (20_memory.md R78, 44_container.md R180). -/

namespace Sys2Proof.Machine

open Sys2Proof.Claims

/-- Byte j of the little-endian form of `v` is the low byte of `v` shifted right by 8j bits. -/
theorem leBytes_eq_map (n v : Nat) : leBytes n v = (List.range n).map fun j => BitVec.ofNat 8 (v >>> (8 * j)) := by
  induction n generalizing v with
  | zero => rfl
  | succ n ih =>
    have hshift (j : Nat) : (v / 256) >>> (8 * j) = v >>> (8 * (j + 1)) := by
      rw [Nat.mul_succ, Nat.add_comm, Nat.shiftRight_add, Nat.shiftRight_eq_div_pow v 8]
    rw [leBytes, ih, List.range_succ_eq_map, List.map_cons, List.map_map]
    simp only [hshift, Nat.mul_zero, Nat.shiftRight_zero, Function.comp_def, Nat.succ_eq_add_one]

/-- OutWrite64 writes byte j as bits 8j+7:8j. -/
theorem outBytes64_eq_le64 (v : Word) : outBytes64 v = le64 v :=
  leBytes_eq_map 8 v.toNat

theorem inRead64_eq_none {unread : List Byte} : inRead64 unread = none ↔ unread.length < 8 := by
  refine ⟨fun h => ?_, inRead64_short⟩
  by_contra hlen
  simp [inRead64, hlen] at h

/-- Settles O49: `le64` is what OutWrite64 writes, so InRead64 reads it back. -/
theorem headerIntegersAreLittleEndian : Obligations.HeaderIntegersAreLittleEndian := by
  intro v bytes
  rw [← outBytes64_eq_le64]
  exact ⟨rfl, inRead64_outBytes64 v bytes, inRead64_eq_none⟩

end Sys2Proof.Machine
end

section
/-! PROOFS. The fields of an encoded command word, and that decoding gives the instruction back (30_encoding.md R91,
R94). -/

namespace Sys2Proof

theorem Instr.fieldWidths : ∀ i : Instr, Laws.FieldWidths.Statement i
  | .ftClear => Laws.FieldWidths.ftClear
  | .ftScan => Laws.FieldWidths.ftScan
  | .inRewind => Laws.FieldWidths.inRewind
  | .treeBuild => Laws.FieldWidths.treeBuild
  | .lookupS2c sym => Laws.FieldWidths.lookupS2c sym
  | .lookupC2s => Laws.FieldWidths.lookupC2s
  | .pack => Laws.FieldWidths.pack
  | .getbit b idx => Laws.FieldWidths.getbit b idx
  | .unpack => Laws.FieldWidths.unpack
  | .hdrWrite => Laws.FieldWidths.hdrWrite
  | .hdrRead => Laws.FieldWidths.hdrRead
  | .compress => Laws.FieldWidths.compress
  | .decompress => Laws.FieldWidths.decompress

variable {i : Instr}

/-- The command word as a number: its fields do not overlap. -/
theorem encode_toNat (h : i.wellFormed = true) :
    (encode i).toNat = i.opcode + i.symOperand * 2 ^ 8 + i.idxOperand * 2 ^ 16 := by
  obtain ⟨hopc, hsym, hidx⟩ := i.fieldWidths h
  have hlow : i.opcode ||| i.symOperand <<< 8 = i.symOperand * 2 ^ 8 + i.opcode := by
    rw [Nat.or_comm, ← Nat.shiftLeft_add_eq_or_of_lt hopc, Nat.shiftLeft_eq]
  have hword : (i.symOperand * 2 ^ 8 + i.opcode) ||| i.idxOperand <<< 16 =
      i.idxOperand * 2 ^ 16 + (i.symOperand * 2 ^ 8 + i.opcode) := by
    rw [Nat.or_comm, ← Nat.shiftLeft_add_eq_or_of_lt (by omega), Nat.shiftLeft_eq]
  rw [encode, hlow, hword, BitVec.toNat_ofNat, Nat.mod_eq_of_lt (by omega)]
  omega

theorem encode_toNat_lt (h : i.wellFormed = true) : (encode i).toNat < 2 ^ 20 := by
  obtain ⟨hopc, hsym, hidx⟩ := i.fieldWidths h
  rw [encode_toNat h]
  omega

theorem opcOf_encode (h : i.wellFormed = true) : (opcOf (encode i)).toNat = i.opcode := by
  obtain ⟨hopc, _, _⟩ := i.fieldWidths h
  rw [opcOf, BitVec.extractLsb'_toNat, encode_toNat h, Nat.shiftRight_zero]
  omega

theorem symOf_encode (h : i.wellFormed = true) : (symOf (encode i)).toNat = i.symOperand := by
  obtain ⟨hopc, hsym, _⟩ := i.fieldWidths h
  rw [symOf, BitVec.extractLsb'_toNat, encode_toNat h, Nat.shiftRight_eq_div_pow]
  omega

theorem idxOf_encode (h : i.wellFormed = true) : (idxOf (encode i)).toNat = i.idxOperand := by
  obtain ⟨hopc, hsym, hidx⟩ := i.fieldWidths h
  rw [idxOf, BitVec.extractLsb'_toNat, encode_toNat h, Nat.shiftRight_eq_div_pow]
  omega

theorem reservedOf_encode (h : i.wellFormed = true) : reservedOf (encode i) = 0 := by
  have := encode_toNat_lt h
  apply BitVec.eq_of_toNat_eq
  rw [reservedOf, BitVec.extractLsb'_toNat, Nat.shiftRight_eq_div_pow, Nat.div_eq_of_lt this]
  rfl

theorem withoutIdx_encode (h : i.wellFormed = true) (hidx : i.idxOperand = 0) (j : Instr) :
    withoutIdx (encode i) j = .ok j :=
  if_pos (BitVec.eq_of_toNat_eq (y := 0#_) ((idxOf_encode h).trans hidx))

theorem withoutOperands_encode (h : i.wellFormed = true) (hsym : i.symOperand = 0) (hidx : i.idxOperand = 0)
    (j : Instr) : withoutOperands (encode i) j = .ok j :=
  (if_pos (BitVec.eq_of_toNat_eq (y := 0#_) ((symOf_encode h).trans hsym))).trans (withoutIdx_encode h hidx j)

theorem decode_encode (h : i.wellFormed = true) : decode (encode i) = .ok i := by
  rw [decode, if_neg (not_not_intro (reservedOf_encode h)), opcOf_encode h]
  cases i with
  | lookupS2c sym => exact (withoutIdx_encode h rfl _).trans (by rw [symOf_encode h]; rfl)
  | getbit b idx => rw [symOf_encode h, idxOf_encode h]; rfl
  | _ => exact withoutOperands_encode h rfl rfl _

/-- A command word lies in the 32 bits the opcode table gives (R90). -/
theorem tableValue_encode (h : i.wellFormed = true) : tableValue 32 (encode i).toNat = (encode i).toNat :=
  Nat.mod_eq_of_lt ((encode_toNat_lt h).trans (by decide))

theorem decodeTableWord_encode (h : i.wellFormed = true) : decodeTableWord 32 (encode i).toNat = some i := by
  rw [decodeTableWord, tableValue_encode h, if_pos (encode i).isLt, BitVec.ofNat_toNat, BitVec.setWidth_eq,
    decode_encode h]
  rfl

end Sys2Proof
end

section
/-! PROOFS. Which move a step is, and a command line of a host program from its CMD write to the end of its POLL
(20_memory.md R73, R75, R81, 30_encoding.md R98). -/

namespace Sys2Proof.Machine

open Sys2Proof.Claims

/-! ## Which move a step is (log 2) -/

theorem waits_of_hostWaits {s : State} (h : HostWaits s) {m : HostMove} {rest : List HostMove}
    (hq : s.hostQueue = m :: rest) : m.waits = true := by
  rw [HostWaits, hq] at h
  cases m with
  | act early a => exact congrArg not (show early = false from h)
  | poll n => exact beq_iff_eq.2 (show n = 0 from h)

/-- A pending command runs when the host waits for it. -/
theorem step_eq_runPending {s : State} (hb : s.busy = true) (hw : HostWaits s) : step s = runPending s := by
  rcases step_cases s with ⟨_, _, h⟩ | ⟨hidle, _, _⟩ | ⟨m, rest, hq, hearly, _⟩
  · exact h
  · exact absurd (hb.symm.trans hidle) Bool.noConfusion
  · exact absurd ((waits_of_hostWaits hw hq).symm.trans (hearly hb)) Bool.noConfusion

/-- The host makes its next move when no command is pending or the move does not wait for one. -/
theorem step_eq_hostMove {s : State} {m : HostMove} {rest : List HostMove} (hq : s.hostQueue = m :: rest)
    (hearly : s.busy = true → m.waits = false) : step s = hostMove m { s with hostQueue := rest } := by
  rcases step_cases s with ⟨hb, hw, _⟩ | ⟨_, hnil, _⟩ | ⟨m', rest', hq', _, h⟩
  · exact absurd ((hw m (by simp [hq])).symm.trans (hearly hb)) Bool.noConfusion
  · exact absurd (hq.symm.trans hnil) (List.cons_ne_nil _ _)
  · obtain ⟨rfl, rfl⟩ := List.cons.inj (hq.symm.trans hq')
    exact h

theorem runPending_of_decode {s : State} {i : Instr} (h : decode s.cmd = .ok i) : runPending s = exec i s := by
  rw [runPending, h]

/-- Settles O5: the step is the pending command, which is the decoded instruction. -/
theorem stepRunsTheDecodedCommand : Obligations.StepRunsTheDecodedCommand :=
  fun _ _ hb hw hd => (step_eq_runPending hb hw).trans (runPending_of_decode hd)

/-! ## A placed command (log 4) -/

theorem hostWaits_placeCommand (s : State) (v : Word) : HostWaits (s.placeCommand v) := by
  rw [HostWaits, State.placeCommand_hostQueue]
  cases s.hostQueue with
  | nil => trivial
  | cons m rest => cases m <;> rfl

theorem withFetchWord_encode (s : State) {i : Instr} (h : i.wellFormed = true) :
    s.withFetchWord 32 (encode i).toNat = s.placeCommand (encode i) := by
  rw [State.withFetchWord, tableValue_encode h, BitVec.ofNat_toNat, BitVec.setWidth_eq]

/-- Settles O6: a placed word is a pending command the host waits for, and the encoding decodes to its instruction. -/
theorem placedWordRunsNext : Obligations.PlacedWordRunsNext := by
  intro s i h
  rw [withFetchWord_encode s h]
  exact ⟨decodeTableWord_encode h, rfl,
    stepRunsTheDecodedCommand _ i rfl (hostWaits_placeCommand s _) (decode_encode h)⟩

/-! ## The host's moves -/

theorem step_act {s : State} {early : Bool} {a : HostAction} {rest : List HostMove}
    (hq : s.hostQueue = .act early a :: rest) (hearly : s.busy = true → early = true) :
    step s = hostAct a { s with hostQueue := rest } :=
  step_eq_hostMove hq fun hb => congrArg not (hearly hb)

/-- A POLL that finds no command pending ends. -/
theorem step_poll_idle {s : State} {n : Nat} {rest : List HostMove} (hq : s.hostQueue = .poll n :: rest)
    (hb : s.busy = false) :
    step s = .next { s with hostQueue := rest, hostReplies := s.hostReplies ++ [.value s.statusWord] } :=
  (step_eq_hostMove hq fun h => absurd (hb.symm.trans h) Bool.noConfusion).trans
    (pollRead_of_idle (s := { s with hostQueue := rest }) n hb)

/-- A POLL that may read while a command is pending reads BUSY = 1 and goes on. -/
theorem step_poll_busy {s : State} {n : Nat} {rest : List HostMove} (hq : s.hostQueue = .poll (n + 1) :: rest)
    (hb : s.busy = true) :
    step s = .next { s with
      hostQueue := .poll n :: rest
      hostReplies := s.hostReplies ++ [.value s.statusWord] } :=
  (step_eq_hostMove hq fun _ => rfl).trans (pollRead_of_busy (s := { s with hostQueue := rest }) (n + 1) hb)

/-- Settles O8: the three moves of the host. -/
theorem hostActsBetweenCommands : Obligations.HostActsBetweenCommands :=
  fun _ _ => ⟨fun _ _ hq hearly => step_act hq hearly, fun _ hq hb => step_poll_idle hq hb,
    fun _ hq hb => step_poll_busy hq hb⟩

/-! ## A command line (R98) -/

theorem run_succ_of_step {M : Host.Core} {s t : M.State} (h : M.step s = .next t) (k : Nat) :
    M.run (k + 1) s = M.run k t := by
  rw [Host.Core.run, h]

/-- The reads of a POLL that come while a command is pending, one step each. -/
theorem run_busyReads (rest : List HostMove) (k : Nat) {n : Nat} {s : State} (hb : s.busy = true)
    (hq : s.hostQueue = .poll n :: rest) :
    Host.Core.run core (n + k) s = Host.Core.run core k { s with
      hostQueue := .poll 0 :: rest
      hostReplies := s.hostReplies ++ List.replicate n (.value s.statusWord) } := by
  induction n generalizing s with
  | zero => rw [Nat.zero_add, List.replicate_zero, List.append_nil, ← hq]
  | succ n ih =>
    rw [Nat.add_right_comm]
    refine (run_succ_of_step (step_poll_busy hq hb) _).trans ((ih (s := { s with
      hostQueue := .poll n :: rest
      hostReplies := s.hostReplies ++ [.value s.statusWord] }) hb rfl).trans ?_)
    rw [List.append_assoc]
    rfl

/-- A command that has run is no longer pending (60_exceptions.md R226, R228). -/
theorem exec_busy {i : Instr} {s t : State} (h : exec i s = .next t) : t.busy = false := by
  rw [exec_eq_finish] at h
  rcases Body.finish_next h with ⟨u, _, rfl⟩ | ⟨e, u, _, rfl⟩ <;> rfl

/-- Settles O9: the CMD write, the reads that find BUSY = 1, the command, and the read that ends the POLL. -/
theorem commandLineRunsItsCommand : Obligations.CommandLineRunsItsCommand := by
  intro s t i early reads rest hidle hwf hq pending hexec
  have hwrite : step s = .next { pending with hostQueue := .poll reads :: rest } :=
    (step_act hq fun hb => absurd (hidle.symm.trans hb) Bool.noConfusion).trans
      (hostAct_write_reg (s := { s with hostQueue := .poll reads :: rest }) hidle .cmd (encode i))
  have hcommand := (stepRunsTheDecodedCommand { pending with
    hostReplies := s.hostReplies ++ List.replicate reads (.value pending.statusWord) } i rfl rfl
    (decode_encode hwf)).trans hexec
  have hdone := step_poll_idle (exec_frame hexec).hostQueue (exec_busy hexec)
  calc Host.Core.run core (reads + 3) s
    _ = Host.Core.run core (reads + 2) { pending with hostQueue := .poll reads :: rest } := run_succ_of_step hwrite _
    _ = Host.Core.run core 2 { pending with
          hostReplies := s.hostReplies ++ List.replicate reads (.value pending.statusWord) } :=
        run_busyReads rest 2 rfl rfl
    _ = Host.Core.run core 1 t := run_succ_of_step hcommand 1
    _ = .next { t with hostQueue := rest, hostReplies := t.hostReplies ++ [.value t.statusWord] } :=
        run_succ_of_step hdone 0

end Sys2Proof.Machine
end

section
/-! PROOFS. Which command words are legal and what each selects, what an illegal one does, and words and lines of host
programs as the spec writes them (30_encoding.md R91 to R98). -/

namespace Sys2Proof

open Sys2Proof.Machine Sys2Proof.Claims

variable {w : Word} {i j : Instr}

/-! ## The words that decode -/

/-- A command word is made of its four fields (R91). -/
theorem toNat_eq_fields (w : Word) : w.toNat = (opcOf w).toNat + (symOf w).toNat * 2 ^ 8 +
    (idxOf w).toNat * 2 ^ 16 + (reservedOf w).toNat * 2 ^ 20 := by
  have := w.isLt
  simp only [opcOf, symOf, idxOf, reservedOf, BitVec.extractLsb'_toNat, Nat.shiftRight_eq_div_pow]
  omega

theorem withoutIdx_eq_ok : withoutIdx w j = .ok i ↔ idxOf w = 0 ∧ j = i := by
  unfold withoutIdx
  split
  next h => rw [and_iff_right h, Except.ok.injEq]
  next h => exact iff_of_false nofun fun hidx => h hidx.1

theorem withoutOperands_eq_ok : withoutOperands w j = .ok i ↔ symOf w = 0 ∧ idxOf w = 0 ∧ j = i := by
  unfold withoutOperands
  split
  next h => rw [and_iff_right h, withoutIdx_eq_ok]
  next h => exact iff_of_false nofun fun hsym => h hsym.1

theorem wellFormed_lookupS2c {sym : Nat} : (Instr.lookupS2c sym).wellFormed = true ↔ sym < 256 := by
  simp only [Instr.wellFormed, symOperandOk, decide_eq_true_eq]
  omega

theorem wellFormed_getbit {b idx : Nat} : (Instr.getbit b idx).wellFormed = true ↔ b < 256 ∧ idx < 16 := by
  simp only [Instr.wellFormed, symOperandOk, idxOperandOk, Bool.and_eq_true, decide_eq_true_eq]
  omega

/-- A word that decodes carries the fields of a well-formed instruction and no reserved bit (R94). -/
theorem fields_of_decode (h : decode w = .ok i) : i.wellFormed = true ∧ (reservedOf w).toNat = 0 ∧
    (opcOf w).toNat = i.opcode ∧ (symOf w).toNat = i.symOperand ∧ (idxOf w).toNat = i.idxOperand := by
  unfold decode at h
  split at h
  · simp at h
  next hres =>
    refine and_left_comm.1 ⟨congrArg BitVec.toNat (not_not.1 hres), ?_⟩
    split at h
    case h_5 hopc =>
      obtain ⟨hidx, rfl⟩ := withoutIdx_eq_ok.1 h
      exact ⟨wellFormed_lookupS2c.2 (symOf w).isLt, hopc, rfl, congrArg BitVec.toNat hidx⟩
    case h_8 hopc =>
      obtain rfl := Except.ok.inj h
      exact ⟨wellFormed_getbit.2 ⟨(symOf w).isLt, (idxOf w).isLt⟩, hopc, rfl, rfl⟩
    case h_14 => simp at h
    all_goals
      rename_i hopc
      obtain ⟨hsym, hidx, rfl⟩ := withoutOperands_eq_ok.1 h
      exact ⟨rfl, hopc, congrArg BitVec.toNat hsym, congrArg BitVec.toNat hidx⟩

/-- The legal words are the encodings of the well-formed instructions. -/
theorem decode_eq_ok_iff : decode w = .ok i ↔ i.wellFormed = true ∧ w = encode i := by
  constructor
  · intro h
    obtain ⟨hwf, hres, hopc, hsym, hidx⟩ := fields_of_decode h
    refine ⟨hwf, BitVec.eq_of_toNat_eq ?_⟩
    rw [toNat_eq_fields, encode_toNat hwf, hopc, hsym, hidx, hres, Nat.zero_mul, Nat.add_zero]
  · rintro ⟨hwf, rfl⟩
    exact decode_encode hwf

/-- The command word as a sum of its shifted fields. -/
theorem encode_eq_ofNat (h : i.wellFormed = true) :
    encode i = BitVec.ofNat 64 (i.opcode + i.symOperand * 0x100 + i.idxOperand * 0x10000) := by
  have hnat : (encode i).toNat = i.opcode + i.symOperand * 0x100 + i.idxOperand * 0x10000 := encode_toNat h
  rw [← hnat, BitVec.ofNat_toNat, BitVec.setWidth_eq]

/-- Settles O1: the fields of an encoded word are read back one by one (`decode_encode`). -/
theorem decodeInvertsEncode : Obligations.DecodeInvertsEncode := fun _ h => decode_encode h

/-- Settles O2: a word decodes exactly when it is the encoding of a well-formed instruction. -/
theorem legalWordsAreExactlyThoseOfTheOpcodeMap : Obligations.LegalWordsAreExactlyThoseOfTheOpcodeMap := by
  intro w i
  rw [decode_eq_ok_iff]
  cases i with
  | lookupS2c sym =>
    dsimp only
    rw [← wellFormed_lookupS2c]
    exact and_congr_right fun h => by rw [encode_eq_ofNat h, Instr.idxOperand, Nat.zero_mul, Nat.add_zero]; rfl
  | getbit b idx =>
    dsimp only
    rw [← and_assoc, ← wellFormed_getbit]
    exact and_congr_right fun h => by rw [encode_eq_ofNat h]; rfl
  | _ => exact and_iff_right rfl

/-- Settles O3: the decoder evaluated on each word. -/
theorem specWordsDecode : Obligations.SpecWordsDecode := by
  unfold Obligations.SpecWordsDecode
  decide

/-! ## Illegal words (R95) -/

theorem legalWord_of_decode (h : decode w = .ok i) : LegalWord w := by
  obtain ⟨hwf, rfl⟩ := decode_eq_ok_iff.1 h
  refine ⟨encode_toNat_lt hwf, ?_⟩
  rw [encode_toNat hwf]
  cases i with
  | lookupS2c sym =>
    have := wellFormed_lookupS2c.1 hwf
    simp only [Instr.opcode, Instr.symOperand, Instr.idxOperand]
    exact .inr (.inl (by omega))
  | getbit b idx =>
    simp only [Instr.opcode, Instr.symOperand, Instr.idxOperand]
    exact .inr (.inr (by omega))
  | _ => exact .inl (by decide)

/-- Settles O4: the pending word does not decode, so the step is the abort with ERR_ILLEGAL. -/
theorem illegalWordChangesOnlyStatus : Obligations.IllegalWordChangesOnlyStatus := by
  intro s hb hw hlegal
  rw [step_eq_runPending hb hw]
  rcases runPending_cases s with ⟨i, hd, _⟩ | ⟨_, _, hrun⟩
  · exact absurd (legalWord_of_decode hd) hlegal
  · exact hrun

/-! ## Lines of a host program (R97, R98) -/

/-- Settles O10: the assembler evaluated on each line. -/
theorem specLinesAssemble : Obligations.SpecLinesAssemble := by
  unfold Obligations.SpecLinesAssemble
  decide

end Sys2Proof
end

section
/-! PROOFS. COMPRESS and its component commands one after the other (30_encoding.md R99, 45_orchestration.md R200): FT_SCAN
without an overflow, and that no component reads the completion flags. -/

namespace Sys2Proof.Machine

/-! ## FT_SCAN without an overflow (R111) -/

/-- One byte counted into the table. -/
def State.countByte (s : State) (b : Byte) : State := s.setEntry b (s.freqOf b + 1)

/-- The table after the bytes are counted into it; every other field is as it was. -/
def State.countBytes (s : State) (bs : List Byte) : State := bs.foldl State.countByte s

/-- The state after an FT_SCAN that meets no overflow. -/
def State.scanned (s : State) : State :=
  { (s.countBytes s.unread).consume s.unread.length with
    symCount := s.symCount + BitVec.ofNat 64 s.unread.length
    rptOrig := BitVec.ofNat 64 s.unread.length }

/-- Where no count passes 2^64 − 1 the loop of FT_SCAN counts every byte. -/
theorem scanLoop_eq_countBytes {bs : List Byte} {cnt : Nat} {s : State}
    (hfreq : ∀ b, (s.freqOf b).toNat + bs.count b < 2 ^ 64) (hcount : s.symCount.toNat + cnt + bs.length < 2 ^ 64) :
    scanLoop bs cnt s = some (cnt + bs.length, s.countBytes bs) := by
  induction bs generalizing cnt s with
  | nil => rfl
  | cons b bs ih =>
    have hb := hfreq b
    rw [List.count_cons_self] at hb
    rw [List.length_cons] at hcount
    rw [scanLoop, if_neg (by omega), ih (fun c => ?_) (by rw [State.setEntry_symCount]; omega), List.length_cons,
      Nat.add_right_comm, Nat.add_assoc]
    · rfl
    · have hc := hfreq c
      rw [State.setEntry_freqOf]
      split
      next h =>
        subst h
        rw [BitVec.toNat_add, show (1 : Word).toNat = 1 from rfl, Nat.mod_eq_of_lt (by omega)]
        omega
      next h => rwa [List.count_cons_of_ne (Ne.symm h)] at hc

theorem countBytes_eq (s : State) (bs : List Byte) : ∃ p f, s.countBytes bs = { s with present := p, freq := f } := by
  induction bs generalizing s with
  | nil => exact ⟨_, _, rfl⟩
  | cons b bs ih =>
    obtain ⟨p, f, h⟩ := ih (s.countByte b)
    exact ⟨p, f, h⟩

theorem ftScanBody_eq_scanned {s : State} (hfreq : ∀ b, (s.freqOf b).toNat + s.unread.count b < 2 ^ 64)
    (hcount : s.symCount.toNat + s.unread.length < 2 ^ 64) : ftScanBody s = .done s.scanned := by
  obtain ⟨p, f, htable⟩ := countBytes_eq s s.unread
  rw [ftScanBody, scanLoop_eq_countBytes hfreq hcount, State.scanned, Nat.zero_add, htable]

/-- Counting touches only the table, so it commutes with what changes neither the table nor the input. -/
theorem countBytes_comm {f : State → State} (hf : ∀ s b, (f s).countByte b = f (s.countByte b)) (s : State)
    (bs : List Byte) : (f s).countBytes bs = f (s.countBytes bs) :=
  List.foldl_hom f hf

theorem scanned_complete (s : State) : s.complete.scanned = s.scanned.complete := by
  rw [State.scanned, countBytes_comm fun _ _ => rfl]
  rfl

theorem scanned_invalidate (s : State) : s.invalidate.scanned = s.scanned.invalidate := by
  rw [State.scanned, countBytes_comm fun _ _ => rfl]
  rfl

/-- An empty table and an input within MAX_STREAM leave no room for an overflow. -/
theorem ftScanBody_ftClearBody {s : State} (h : s.unread.length ≤ Config.maxStream) :
    ftScanBody (ftClearBody s) = .done (ftClearBody s).scanned := by
  have hlen : s.unread.length ≤ 2 ^ 56 - 1 := h
  have hunread : (ftClearBody s).unread = s.unread := rfl
  have hfreq (b : Symbol) : ((ftClearBody s).freqOf b).toNat = 0 := congrArg BitVec.toNat (s.clearTable_freqOf b)
  have hsym : (ftClearBody s).symCount.toNat = 0 := rfl
  refine ftScanBody_eq_scanned (fun b => ?_) ?_
  · have hcount : s.unread.count b ≤ s.unread.length := List.count_le_length
    rw [hfreq, hunread]
    omega
  · rw [hsym, hunread]
    omega

/-! ## PACK, the last component -/

/-- Where every byte had a code, PACK has packed them all. -/
theorem packLoop_ended {codeOf : Symbol → Option BitString} {bs : List Byte} {p q : Packer} {count m : Nat}
    (h : packLoop codeOf bs p count = (q, m, true)) : m = count + bs.length := by
  induction bs generalizing p count with
  | nil =>
    obtain ⟨_, rfl, _⟩ := by simpa only [packLoop, Prod.mk.injEq] using h
    rfl
  | cons b bs ih =>
    rw [packLoop] at h
    split at h
    · simp at h
    · rw [ih h, List.length_cons]
      omega

/-- COMPRESS ends by setting RPT_ORIG to SYM_COUNT, which PACK of a whole counted input has done already. -/
theorem packBody_andThen_setOrig {s : State} (h : s.symCount = BitVec.ofNat 64 s.unread.length) :
    ((packBody s).andThen fun packed => .done { packed with rptOrig := packed.symCount }) = packBody s := by
  unfold packBody
  simp only
  split
  next p count hloop =>
    have hcount : count = s.unread.length := by simpa [State.unread] using packLoop_ended hloop
    have hsym : s.ensureS2c.symCount = BitVec.ofNat 64 count := by rw [State.ensureS2c_symCount, h, hcount]
    rw [Body.done_andThen, ← hsym]
    rfl
  next => rfl

theorem ensureS2c_complete (s : State) : s.complete.ensureS2c = s.ensureS2c.complete := by
  unfold State.ensureS2c
  rw [State.complete_s2cValid]
  split <;> rfl

theorem packBody_complete_finish (s : State) : (packBody s.complete).finish = (packBody s).finish := by
  have hloop : packLoop s.ensureS2c.complete.codeOf s.ensureS2c.complete.unread =
    packLoop s.ensureS2c.codeOf s.ensureS2c.unread := rfl
  unfold packBody
  rw [ensureS2c_complete]
  simp only [hloop]
  rcases packLoop s.ensureS2c.codeOf s.ensureS2c.unread Packer.start 0 with ⟨p, count, _ | _⟩ <;> rfl

theorem packBody_finish_next (s : State) : ∃ t, (packBody s).finish = .next t := by
  unfold packBody
  simp only
  split <;> exact ⟨_, rfl⟩

/-! ## The sequence (R200) -/

/-- What COMPRESS has before its PACK, and the component commands before theirs. -/
def State.headerWritten (s : State) : State := (hdrWriteBody (treeBuildBody (ftClearBody s).scanned)).rewind

theorem headerWritten_streams (s : State) : s.headerWritten.symCount = BitVec.ofNat 64 s.unread.length ∧
    s.headerWritten.unread = s.inData ∧ s.headerWritten.inAvail = s.inAvail := by
  obtain ⟨p, f, htable⟩ := countBytes_eq (ftClearBody s) (ftClearBody s).unread
  rw [State.headerWritten, State.unread_rewind, State.scanned, htable]
  refine ⟨?_, ?_, ?_⟩ <;> simp [hdrWriteBody, treeBuildBody, ftClearBody, State.unread]

/-- COMPRESS is its last PACK, after the table, the tree and the header of the whole input. -/
theorem compressBody_eq_packBody {s : State} (h : s.inData.length ≤ Config.maxStream) :
    compressBody s = packBody s.rewind.headerWritten := by
  have hscan : ftScanBody (ftClearBody s.invalidate.rewind) = .done (ftClearBody s.rewind).scanned.invalidate := by
    rw [ftScanBody_ftClearBody (by rwa [State.unread_rewind]), ← scanned_invalidate]
    rfl
  obtain ⟨hsym, hunread, _⟩ := headerWritten_streams s.rewind
  rw [compressBody, hscan, Body.done_andThen]
  exact packBody_andThen_setOrig (s := s.rewind.headerWritten) (by rw [hsym, hunread, State.unread_rewind]; rfl)

theorem rewind_of_inPtr_zero {s : State} (h : s.inPtr = 0) : s.rewind = s := by
  rw [State.rewind, ← h]

theorem exec_compress_eq {s : State} (hin : s.inAvail = true) (hlen : s.inData.length ≤ Config.maxStream) :
    exec .compress s = (packBody s.rewind.headerWritten).finish := by
  rw [exec, execCompress, requireInput_attached hin, compressBody_eq_packBody hlen]

theorem exec_ftScan_of_ftClear {s : State} (hin : s.inAvail = true) (hlen : s.unread.length ≤ Config.maxStream) :
    exec .ftScan (ftClearBody s).complete = .next (ftClearBody s).scanned.complete := by
  have hscan : ftScanBody (ftClearBody s).complete = .done (ftClearBody s).scanned.complete :=
    (ftScanBody_ftClearBody (s := s.complete) hlen).trans (congrArg Body.done (scanned_complete (ftClearBody s)))
  have hbody := (requireInput_attached (s := (ftClearBody s).complete) hin ftScanBody).trans hscan
  rw [exec, execFtScan, hbody]
  rfl

theorem exec_inRewind_complete {s : State} (hin : s.inAvail = true) :
    exec .inRewind s.complete = .next s.rewind.complete := by
  rw [exec, execInRewind, requireInput_attached (by exact hin)]
  rfl

/-- PACK after the component commands is PACK inside COMPRESS: it does not read the completion flags. -/
theorem exec_pack_complete {s : State} (hb : s.treeBuilt = true) (hin : s.inAvail = true) :
    exec .pack s.complete = (packBody s).finish := by
  rw [exec, execPack, requireTree_built (by exact hb), requireInput_attached (by exact hin), packBody_complete_finish]

/-- Settles O55: after five component commands the state is what COMPRESS has before its PACK, with DONE set, so both
end in the same state. -/
theorem compressEqualsItsComponents : Obligations.CompressEqualsItsComponents := by
  intro s hin hlen hptr
  obtain ⟨t, ht⟩ := packBody_finish_next s.headerWritten
  obtain ⟨_, _, havail⟩ := headerWritten_streams s
  have hrewind : s.rewind = s := rewind_of_inPtr_zero hptr
  have hunread : s.unread = s.inData := by rw [← hrewind, State.unread_rewind]; rfl
  refine ⟨(ftClearBody s).complete, (ftClearBody s).scanned.complete,
    (treeBuildBody (ftClearBody s).scanned).complete, (hdrWriteBody (treeBuildBody (ftClearBody s).scanned)).complete,
    s.headerWritten.complete, t, t, rfl, exec_ftScan_of_ftClear hin (hunread ▸ hlen), ?_, ?_, ?_, ?_, ?_,
    rfl, rfl, rfl, rfl⟩
  · rfl
  · rfl
  · exact exec_inRewind_complete (havail.trans hin)
  · exact (exec_pack_complete rfl (havail.trans hin)).trans ht
  · rw [exec_compress_eq hin hlen, hrewind, ht]

end Sys2Proof.Machine
end

section
/-! PROOFS. The frequency table commands (40_freq_table.md): what FT_CLEAR, FT_SCAN and IN_REWIND leave, and where FT_SCAN
is refused. -/

namespace Sys2Proof.Machine

open Sys2Proof.Claims

/-- The abort of ERR_INPUT, in the statements' words. -/
theorem requireInput_detached_finish {s : State} (h : s.inAvail = false) (body : State → Body) :
    (requireInput body s).finish = .next (failed 1 s) := by
  rw [requireInput_detached h]
  rfl

/-! ## FT_CLEAR and IN_REWIND (R110, R112) -/

theorem popcount_zero : popcount 0 = 0 := by simp [popcount]

/-- Settles O28: the body empties the table and SYM_COUNT, and an empty bitmap counts no keys. -/
theorem ftClearEmptiesTheTable : Obligations.FtClearEmptiesTheTable := fun s =>
  ⟨(ftClearBody s).complete, rfl, rfl, fun b => ⟨s.clearTable_freqOf b, s.clearTable_isKey b⟩,
    congrArg (BitVec.ofNat 64) popcount_zero⟩

/-- Settles O30: the two cases of the input check. -/
theorem inRewindResetsThePosition : Obligations.InRewindResetsThePosition := by
  refine fun s => ⟨fun hin => ?_, fun hout => requireInput_detached_finish hout _⟩
  rw [exec, execInRewind, requireInput_attached hin]
  rfl

/-! ## Counting bytes into the table (R111) -/

/-- Where FREQ[b] is not at its last value, counting b moves one occurrence from the bytes to the table. -/
theorem countByte_freqOf_add_count {s : State} {b : Byte} (h : (s.freqOf b).toNat ≠ 2 ^ 64 - 1) (c : Symbol)
    (bs : List Byte) :
    ((s.countByte b).freqOf c).toNat + bs.count c = (s.freqOf c).toNat + (b :: bs).count c := by
  rw [State.countByte, State.setEntry_freqOf]
  split
  next hc =>
    subst hc
    have := (s.freqOf c).isLt
    rw [List.count_cons_self, BitVec.toNat_add, show (1 : Word).toNat = 1 from rfl, Nat.mod_eq_of_lt (by omega)]
    omega
  next hc => rw [List.count_cons_of_ne (Ne.symm hc)]

/-- Each FREQ grows by the number of occurrences of its byte. -/
theorem countBytes_freqOf {s : State} {bs : List Byte} (h : ∀ b, (s.freqOf b).toNat + bs.count b < 2 ^ 64)
    (c : Symbol) : ((s.countBytes bs).freqOf c).toNat = (s.freqOf c).toNat + bs.count c := by
  induction bs generalizing s with
  | nil => rfl
  | cons b bs ih =>
    have hb : (s.freqOf b).toNat ≠ 2 ^ 64 - 1 := by
      have := h b
      rw [List.count_cons_self] at this
      omega
    have hstep := countByte_freqOf_add_count hb (bs := bs)
    rw [← hstep, ← ih fun d => hstep d ▸ h d]
    rfl

/-- The bytes counted become keys. -/
theorem countBytes_isKey (s : State) (bs : List Byte) (c : Symbol) :
    (s.countBytes bs).isKey c = (s.isKey c || decide (c ∈ bs)) := by
  induction bs generalizing s with
  | nil => simp [State.countBytes]
  | cons b bs ih =>
    have hstep : s.countBytes (b :: bs) = (s.countByte b).countBytes bs := rfl
    rw [hstep, ih, State.countByte, State.setEntry_isKey, Bool.or_assoc]
    simp [Bool.beq_eq_decide_eq]

theorem scanned_freqOf {s : State} (h : ∀ b, (s.freqOf b).toNat + s.unread.count b < 2 ^ 64) (c : Symbol) :
    (s.scanned.freqOf c).toNat = (s.freqOf c).toNat + s.unread.count c :=
  countBytes_freqOf h c

theorem scanned_isKey (s : State) (c : Symbol) : s.scanned.isKey c = (s.isKey c || decide (c ∈ s.unread)) :=
  countBytes_isKey s s.unread c

/-! ## FT_SCAN (R111) -/

/-- With in_ptr in the stream, FT_SCAN writes the table, SYM_COUNT, RPT_ORIG and in_ptr, which is left at the end. -/
theorem scanned_eq {s : State} (h : StreamsOk s) :
    s.scanned = { s with
      freq := s.scanned.freq
      present := s.scanned.present
      symCount := s.symCount + BitVec.ofNat 64 s.unread.length
      rptOrig := BitVec.ofNat 64 s.unread.length
      inPtr := BitVec.ofNat 64 s.inData.length } := by
  obtain ⟨p, f, htable⟩ := countBytes_eq s s.unread
  have hptr := h.1
  have hend : s.inPtr.toNat + s.unread.length = s.inData.length := by
    rw [State.unread_length]
    omega
  rw [State.scanned, htable, ← hend]
  rfl

/-- Where a count would pass 2^64 − 1, in FREQ or in SYM_COUNT, the loop meets it at that value and is refused. -/
theorem scanLoop_eq_none {bs : List Byte} {cnt : Nat} {s : State} (hcnt : s.symCount.toNat + cnt < 2 ^ 64)
    (h : (∃ b, 2 ^ 64 ≤ (s.freqOf b).toNat + bs.count b) ∨ 2 ^ 64 ≤ s.symCount.toNat + cnt + bs.length) :
    scanLoop bs cnt s = none := by
  induction bs generalizing cnt s with
  | nil =>
    rcases h with ⟨b, hb⟩ | hlen
    · exact absurd (s.freqOf b).isLt (Nat.not_lt.2 hb)
    · exact absurd hcnt (Nat.not_lt.2 hlen)
  | cons b bs ih =>
    rw [scanLoop]
    split
    next => rfl
    next hlast =>
      obtain ⟨hfreq, hsym⟩ := not_or.1 hlast
      have hkept : (s.countByte b).symCount = s.symCount := rfl
      refine ih (s := s.countByte b) (by rw [hkept]; omega) ?_
      rcases h with ⟨c, hc⟩ | hlen
      · exact .inl ⟨c, (countByte_freqOf_add_count hfreq c bs).symm ▸ hc⟩
      · rw [List.length_cons] at hlen
        exact .inr (by rw [hkept]; omega)

theorem exec_ftScan_eq_scanned {s : State} (hin : s.inAvail = true)
    (hfreq : ∀ b, (s.freqOf b).toNat + s.unread.count b < 2 ^ 64)
    (hcount : s.symCount.toNat + s.unread.length < 2 ^ 64) : exec .ftScan s = .next s.scanned.complete := by
  rw [exec, execFtScan, requireInput_attached hin, ftScanBody_eq_scanned hfreq hcount, Body.finish_done]

theorem exec_ftScan_refused {s : State} (hin : s.inAvail = true)
    (h : (∃ b, 2 ^ 64 ≤ (s.freqOf b).toNat + s.unread.count b) ∨ 2 ^ 64 ≤ s.symCount.toNat + s.unread.length) :
    exec .ftScan s = .refused .countOverflow := by
  rw [exec, execFtScan, requireInput_attached hin, ftScanBody, scanLoop_eq_none s.symCount.isLt h]
  rfl

/-- Settles O29: the input check, the scan without an overflow, and the scan that meets one. -/
theorem ftScanCountsTheUnreadBytes : Obligations.FtScanCountsTheUnreadBytes := by
  refine fun s hs => ⟨fun hout => requireInput_detached_finish hout _, fun hin hfreq hcount => ?_,
    exec_ftScan_refused⟩
  exact ⟨s.scanned.complete, exec_ftScan_eq_scanned hin hfreq hcount, congrArg State.complete (scanned_eq hs),
    fun b => ⟨scanned_freqOf hfreq b, scanned_isKey s b⟩⟩

/-! ## The table of a sequence (R113) -/

/-- Each byte of a list is counted under exactly one symbol. -/
theorem sum_count_allSymbols (bs : List Byte) : (allSymbols.map fun b => bs.count b).sum = bs.length := by
  have hnodup : allSymbols.Nodup := allSymbols_ascending.imp fun h he => by simp [he] at h
  rw [← List.sum_toFinset _ hnodup]
  have hmem : ∀ b ∈ (bs : Multiset Byte), b ∈ allSymbols.toFinset := fun b _ =>
    List.mem_toFinset.2 (mem_allSymbols b)
  simpa only [Multiset.coe_count, Multiset.coe_card] using Multiset.sum_count_eq_card hmem

/-- A scan into the empty table leaves the number of occurrences of every byte. -/
theorem ftClearBody_scanned_freqOf {s : State} (h : s.unread.length < 2 ^ 64) (c : Symbol) :
    ((ftClearBody s).scanned.freqOf c).toNat = s.unread.count c := by
  have hempty (b : Symbol) : ((ftClearBody s).freqOf b).toNat = 0 := congrArg BitVec.toNat (s.clearTable_freqOf b)
  have hroom (b : Symbol) : ((ftClearBody s).freqOf b).toNat + (ftClearBody s).unread.count b < 2 ^ 64 := by
    rw [hempty, Nat.zero_add]
    exact List.count_le_length.trans_lt h
  rw [scanned_freqOf hroom, hempty, Nat.zero_add]
  rfl

/-- A scan into the empty table leaves exactly the bytes it has read as keys. -/
theorem ftClearBody_scanned_isKey (s : State) (c : Symbol) :
    (ftClearBody s).scanned.isKey c = decide (c ∈ s.unread) := by
  have hempty : (ftClearBody s).isKey c = false := s.clearTable_isKey c
  rw [scanned_isKey, hempty, Bool.false_or]
  rfl

/-- Settles O31: FT_CLEAR leaves an empty table, so FT_SCAN counts the whole rewound sequence into it. -/
theorem scannedTableCountsTheSequence : Obligations.ScannedTableCountsTheSequence := by
  intro s hin hlen
  have hlt : s.inData.length < 2 ^ 64 := hlen.trans_lt (by decide)
  have hunread : s.rewind.unread = s.inData := s.unread_rewind
  have hfreq (b : Symbol) : ((ftClearBody s.rewind).scanned.freqOf b).toNat = s.inData.count b :=
    hunread ▸ ftClearBody_scanned_freqOf (s := s.rewind) (hunread ▸ hlt) b
  have hkey (b : Symbol) : (ftClearBody s.rewind).scanned.isKey b = true ↔ b ∈ s.inData := by
    rw [ftClearBody_scanned_isKey, hunread, decide_eq_true_iff]
  refine ⟨(ftClearBody s).complete, (ftClearBody s.rewind).complete, (ftClearBody s.rewind).scanned.complete, rfl,
    exec_inRewind_complete hin, exec_ftScan_of_ftClear hin (hunread ▸ hlen), fun b => ⟨hkey b, hfreq b⟩, ?_, ?_⟩
  · have hsym : (ftClearBody s.rewind).scanned.symCount = 0#64 + BitVec.ofNat 64 s.rewind.unread.length := rfl
    rw [State.complete_symCount, hsym, hunread, BitVec.zero_add, BitVec.toNat_ofNat, Nat.mod_eq_of_lt hlt]
  · rw [← sum_count_allSymbols s.inData]
    exact congrArg List.sum (List.map_congr_left fun b _ => hfreq b)

end Sys2Proof.Machine
end

section
/-! PROOFS. Every command completes, but for the overflow of FT_SCAN and COMPRESS (60_exceptions.md R228, R229, R262). -/

namespace Sys2Proof.Machine

/-! ## What a body can be refused for -/

/-- If the body is refused, then for a reason that satisfies `P`. -/
def Body.Refuses (P : Refusal → Prop) : Body → Prop
  | .done _ => True
  | .raised _ _ => True
  | .refused r => P r

@[simp] theorem Body.refuses_done {P : Refusal → Prop} {s : State} : (Body.done s).Refuses P := trivial

@[simp] theorem Body.refuses_raised {P : Refusal → Prop} {e : EngineError} {s : State} :
    (Body.raised e s).Refuses P := trivial

/-- A sequence of bodies is refused where one of them is. -/
theorem Body.Refuses.andThen {P : Refusal → Prop} {b : Body} {k : State → Body} (hb : b.Refuses P)
    (hk : ∀ t, (k t).Refuses P) : (b.andThen k).Refuses P := by
  cases b with
  | done s => exact hk s
  | raised e s => trivial
  | refused r => exact hb

theorem refuses_requireInput {P : Refusal → Prop} {body : State → Body} {s : State} (hb : (body s).Refuses P) :
    (requireInput body s).Refuses P := by
  unfold requireInput
  split
  · exact hb
  · trivial

theorem refuses_requireTree {P : Refusal → Prop} {body : State → Body} {s : State} (hb : (body s).Refuses P) :
    (requireTree body s).Refuses P := by
  unfold requireTree
  split
  · exact hb
  · trivial

/-! ## The bodies -/

section
variable {P : Refusal → Prop}

theorem ftScanBody_refuses (hP : P .countOverflow) (s : State) : (ftScanBody s).Refuses P := by
  unfold ftScanBody
  split
  · exact hP
  · trivial

theorem hdrReadBody_refuses (s : State) : (hdrReadBody s).Refuses P := by
  unfold hdrReadBody
  simp only
  split
  · trivial
  · split
    · trivial
    · split
      · trivial
      · split <;> trivial

theorem packBody_refuses (s : State) : (packBody s).Refuses P := by
  unfold packBody
  simp only
  split <;> trivial

theorem unpackBody_refuses (s : State) : (unpackBody s).Refuses P := by
  unfold unpackBody
  simp only
  split
  · trivial
  · split <;> trivial

theorem getbitBody_refuses (b : Byte) (idx : Nat) (s : State) : (getbitBody b idx s).Refuses P := by
  unfold getbitBody
  split <;> trivial

theorem compressBody_refuses (hP : P .countOverflow) (s : State) : (compressBody s).Refuses P :=
  (ftScanBody_refuses hP _).andThen fun _ => (packBody_refuses _).andThen fun _ => trivial

theorem decompressBody_refuses (s : State) : (decompressBody s).Refuses P :=
  (hdrReadBody_refuses _).andThen fun t => by
    split
    · trivial
    · exact unpackBody_refuses _

end

/-! ## Every command -/

/-- The one refusal (R229): a count that would pass 2^64 − 1, in FT_SCAN or in the FT_SCAN that COMPRESS runs (log 13). -/
theorem bodyOf_refuses (i : Instr) (s : State) :
    (bodyOf i s).Refuses fun r => (i = .ftScan ∨ i = .compress) ∧ r = .countOverflow := by
  cases i with
  | ftClear | treeBuild | hdrWrite => trivial
  | inRewind => exact refuses_requireInput (body := fun s => .done s.rewind) trivial
  | lookupS2c sym => exact refuses_requireTree (body := fun s => .done (lookupS2cBody _ s)) trivial
  | lookupC2s => exact refuses_requireTree (body := fun s => .done (lookupC2sBody s)) trivial
  | ftScan => exact refuses_requireInput (ftScanBody_refuses ⟨.inl rfl, rfl⟩ s)
  | pack => exact refuses_requireTree (refuses_requireInput (packBody_refuses s))
  | getbit b idx => exact getbitBody_refuses _ idx s
  | unpack => exact refuses_requireTree (refuses_requireInput (unpackBody_refuses s))
  | hdrRead => exact refuses_requireInput (hdrReadBody_refuses s)
  | compress => exact refuses_requireInput (compressBody_refuses ⟨.inr rfl, rfl⟩ s)
  | decompress => exact refuses_requireInput (decompressBody_refuses s)

/-- Settles O22: a body ends, raises or is refused, and until its end it leaves STATUS as it was. -/
theorem everyCommandCompletes : Obligations.EveryCommandCompletes := by
  intro i s
  have hrefused := bodyOf_refuses i s
  have hends := bodyOf_frame i s
  rw [exec_eq_finish]
  cases hbody : bodyOf i s with
  | done u =>
    rw [hbody, Body.ends_done] at hends
    obtain ⟨_, _, herr, hcode⟩ := hends.kept .status (by cases i <;> simp [writesOf])
    exact .inl ⟨u.complete, rfl, rfl, rfl, .inl ⟨herr, hcode⟩⟩
  | raised e u => exact .inl ⟨u.raise e, rfl, rfl, rfl, .inr ⟨rfl, errorCode_bounds e⟩⟩
  | refused r =>
    rw [hbody] at hrefused
    obtain ⟨hcmd, rfl⟩ := hrefused
    exact .inr ⟨hcmd, rfl⟩

end Sys2Proof.Machine
end

section
/-! PROOFS. The records of a built tree: where its leaves stand, which nodes each merge takes, and that the table alone
fixes them (41_tree.md R121 to R123, R126, R127). -/

namespace Sys2Proof.Machine

open Sys2Proof.Claims

/-! ## Leaves and internal records of an arena (10_state.md R46) -/

theorem Node.hasChild_iff {k : Nat} {f : NodeFreq} {l r : Nat} :
    (Node.internal f l r).hasChild k = true ↔ k = l ∨ k = r := by
  rw [Node.hasChild_internal, Bool.or_eq_true, beq_iff_eq, beq_iff_eq, eq_comm, @eq_comm _ r]

section
variable {arena : List Node}

theorem ArenaOk.leafCount_le (h : ArenaOk arena) : leafCount arena ≤ 256 := h.1

/-- n leaves and n − 1 internal records. -/
theorem ArenaOk.length_eq (h : ArenaOk arena) : arena.length = 2 * leafCount arena - 1 := h.2.1

theorem ArenaOk.leafCount_le_length (h : ArenaOk arena) : leafCount arena ≤ arena.length := by
  have := h.length_eq
  omega

/-- The leaves are the records below the number of leaves. -/
theorem ArenaOk.isLeaf_iff {k : Nat} {x : Node} (h : ArenaOk arena) (hx : arena[k]? = some x) :
    x.isLeaf = true ↔ k < leafCount arena := by
  obtain ⟨_, _, hall, _⟩ := id h
  have hlow := List.all_eq_true.1 hall
  have hsplit : ((arena.take (leafCount arena)).filter Node.isLeaf).length +
      ((arena.drop (leafCount arena)).filter Node.isLeaf).length = leafCount arena := by
    rw [← List.length_append, ← List.filter_append, List.take_append_drop, leafCount]
  have htake : ((arena.take (leafCount arena)).filter Node.isLeaf).length = leafCount arena := by
    rw [List.filter_eq_self.2 hlow, List.length_take, min_eq_left h.leafCount_le_length]
  have hdrop : (arena.drop (leafCount arena)).filter Node.isLeaf = [] := List.length_eq_zero_iff.1 (by omega)
  constructor
  · intro hleaf
    by_contra hk
    refine List.filter_eq_nil_iff.1 hdrop x (List.mem_of_getElem? (i := k - leafCount arena) ?_) hleaf
    rw [List.getElem?_drop, Nat.add_sub_cancel' (by omega), hx]
  · intro hk
    exact hlow x (List.mem_of_getElem? (i := k) (by rw [List.getElem?_take_of_lt hk, hx]))

end

theorem getElem?_of_prefix {arena arena' : List Node} (hp : arena <+: arena') {k : Nat} (hk : k < arena.length) :
    arena'[k]? = arena[k]? := by
  obtain ⟨more, rfl⟩ := hp
  exact List.getElem?_append_left hk

theorem leafCount_buildArena {leaves : List Node} (h : ∀ x ∈ leaves, x.isLeaf = true) :
    leafCount (buildArena leaves) = leaves.length := by
  rw [leafCount, buildArena, mergeLoop_filter_isLeaf, List.filter_eq_self.2 h]

@[simp] theorem State.leafCount_buildArena (s : State) : leafCount (buildArena s.leafNodes) = popcount s.present := by
  rw [Machine.leafCount_buildArena s.leafNodes_isLeaf, State.leafNodes_length]

theorem buildArena_getElem? {leaves : List Node} {k : Nat} (hk : k < leaves.length) :
    (buildArena leaves)[k]? = leaves[k]? :=
  getElem?_of_prefix (mergeLoop_extends _ _ _) hk

/-! ## The leaves (R121) -/

/-- A key stands in the natural order after the smaller keys. -/
theorem State.keys_getElem? {s : State} {b : Symbol} (hb : s.isKey b = true) :
    s.keys[((List.range b.toNat).filter s.present.getLsbD).length]? = some b := by
  have hlt := b.isLt
  have hsplit : allSymbols = (List.range b.toNat).map (BitVec.ofNat 8) ++
      b :: ((List.range (255 - b.toNat)).map fun k => BitVec.ofNat 8 (b.toNat + (k + 1))) := by
    rw [allSymbols, show (256 : Nat) = b.toNat + ((255 - b.toNat) + 1) by omega, List.range_add, List.map_append,
      List.range_succ_eq_map]
    simp [Function.comp_def]
  have hsmaller : (List.range b.toNat).filter (s.isKey ∘ BitVec.ofNat 8) =
      (List.range b.toNat).filter s.present.getLsbD :=
    List.filter_congr fun k hk => by
      rw [List.mem_range] at hk
      simp [State.isKey, Nat.mod_eq_of_lt (show k < 256 by omega)]
  have hlen : ((List.range b.toNat).filter s.present.getLsbD).length =
      (((List.range b.toNat).map (BitVec.ofNat 8)).filter s.isKey).length := by
    rw [List.filter_map, List.length_map, hsmaller]
  rw [State.keys, hsplit, List.filter_append, List.filter_cons_of_pos hb, hlen,
    List.getElem?_append_right le_rfl, Nat.sub_self, List.getElem?_cons_zero]

/-- The leaf of a key in the finished arena. -/
theorem State.buildArena_leaf_of_isKey {s : State} {b : Symbol} (hb : s.isKey b = true) :
    (buildArena s.leafNodes)[((List.range b.toNat).filter s.present.getLsbD).length]? =
      some (.leaf b ((s.freqOf b).setWidth 72)) := by
  have hleaf : s.leafNodes[((List.range b.toNat).filter s.present.getLsbD).length]? =
      some (.leaf b ((s.freqOf b).setWidth 72)) := by
    rw [State.leafNodes, List.getElem?_map, State.keys_getElem? hb, Option.map_some]
  exact (buildArena_getElem? (List.getElem?_eq_some_iff.1 hleaf).1).trans hleaf

/-- The merges add no leaf. -/
theorem State.isKey_of_buildArena_leaf {s : State} {k : Nat} {b : Symbol} {f : NodeFreq}
    (hk : (buildArena s.leafNodes)[k]? = some (.leaf b f)) : s.isKey b = true ∧ k < popcount s.present := by
  have hlt : k < popcount s.present := by
    rw [← s.leafCount_buildArena]
    exact (s.arenaOk_buildArena.isLeaf_iff hk).1 rfl
  have hleaf := (buildArena_getElem? (by rwa [State.leafNodes_length])).symm.trans hk
  obtain ⟨c, hc, heq⟩ := List.mem_map.1 (List.mem_of_getElem? hleaf)
  obtain ⟨rfl, _⟩ := Node.leaf.inj heq
  exact ⟨State.mem_keys.1 hc, hlt⟩

/-- Settles O33: the arena begins with one leaf per key in natural order, and the merges add no leaf. -/
theorem leavesAreTheKeysInAscendingOrder : Obligations.LeavesAreTheKeysInAscendingOrder := fun s =>
  ⟨(treeBuildBody s).complete, rfl, fun _ hb => State.buildArena_leaf_of_isKey hb,
    fun _ _ _ hk => State.isKey_of_buildArena_leaf hk⟩

/-! ## The merges (R122, R123) -/

/-- Record m, if internal, was made from the two least nodes not merged before it, the lesser on the left. -/
def MergesLeast (arena : List Node) (m : Nat) : Prop :=
  ∀ f l r, arena[m]? = some (.internal f l r) →
    l < m ∧ r < m ∧ ¬ ChildBefore arena m l ∧ ¬ ChildBefore arena m r ∧ NodeBefore arena l r ∧
      ∀ k < m, k ≠ l → k ≠ r → ¬ ChildBefore arena m k → NodeBefore arena r k

section
variable {arena arena' : List Node}

theorem nodeBefore_of_prefix (hp : arena <+: arena') {i j : Nat} (h : NodeBefore arena i j) :
    NodeBefore arena' i j := by
  obtain ⟨x, y, hx, hy, hlt⟩ := h
  exact ⟨x, y, (getElem?_of_prefix hp (List.getElem?_eq_some_iff.1 hx).1).trans hx,
    (getElem?_of_prefix hp (List.getElem?_eq_some_iff.1 hy).1).trans hy, hlt⟩

theorem childBefore_of_prefix (hp : arena <+: arena') {m : Nat} (hm : m ≤ arena.length) (k : Nat) :
    ChildBefore arena' m k ↔ ChildBefore arena m k := by
  unfold ChildBefore
  refine exists_congr fun m' => and_congr_right fun hlt => ?_
  rw [getElem?_of_prefix hp (hlt.trans_le hm)]

/-- Records appended later do not disturb the order of earlier merges. -/
theorem MergesLeast.of_prefix (hp : arena <+: arena') {m : Nat} (hm : m < arena.length) (h : MergesLeast arena m) :
    MergesLeast arena' m := by
  intro f l r hk
  rw [getElem?_of_prefix hp hm] at hk
  obtain ⟨hl, hr, hcl, hcr, hlr, hrest⟩ := h f l r hk
  have hchild := childBefore_of_prefix hp hm.le
  exact ⟨hl, hr, mt (hchild l).1 hcl, mt (hchild r).1 hcr, nodeBefore_of_prefix hp hlr,
    fun k hk hkl hkr hck => nodeBefore_of_prefix hp (hrest k hk hkl hkr (mt (hchild k).2 hck))⟩

theorem childBefore_length_iff (k : Nat) : ChildBefore arena arena.length k ↔ arena.countP (Node.hasChild k) ≠ 0 := by
  rw [← Nat.pos_iff_ne_zero, List.countP_pos_iff]
  constructor
  · rintro ⟨m, _, f, l, r, hm, hk⟩
    exact ⟨_, List.mem_of_getElem? hm, Node.hasChild_iff.2 hk⟩
  · rintro ⟨x, hx, hk⟩
    obtain ⟨m, hm⟩ := List.mem_iff_getElem?.1 hx
    cases x with
    | leaf => simp at hk
    | internal f l r =>
      exact ⟨m, (List.getElem?_eq_some_iff.1 hm).1, f, l, r, hm, Node.hasChild_iff.1 hk⟩

/-- The nodes in Q are those not merged so far. -/
theorem MergeInv.mem_queue_iff {q : List QEntry} (h : MergeInv q arena) {k : Nat} (hk : k < arena.length) :
    (∃ e ∈ q, e.idx = k) ↔ ¬ ChildBefore arena arena.length k := by
  have honce := h.once k
  have hcount : (∃ e ∈ q, e.idx = k) ↔ 0 < queueCount q k := by simp [queueCount, List.countP_pos_iff]
  rw [if_pos hk] at honce
  rw [hcount, childBefore_length_iff]
  omega

theorem MergeInv.idx_nodup {q : List QEntry} (h : MergeInv q arena) : (q.map QEntry.idx).Nodup := by
  rw [List.nodup_iff_count_le_one]
  intro k
  have honce := h.once k
  have hcount : (q.map QEntry.idx).count k = queueCount q k := by
    simp [queueCount, List.count, List.countP_map, Function.comp_def]
  rw [hcount]
  split at honce <;> omega

/-- What PopMin returns comes before the others in Q, as nodes. -/
theorem popMin_nodeBefore {q rest : List QEntry} {x : QEntry}
    (hfreq : ∀ e ∈ q, ∃ n, arena[e.idx]? = some n ∧ n.freq = e.freq) (hnodup : (q.map QEntry.idx).Nodup)
    (h : popMin q = some (x, rest)) : ∀ y ∈ rest, NodeBefore arena x.idx y.idx := by
  intro y hy
  have hp := popMin_perm h
  obtain ⟨hne, _⟩ := List.nodup_cons.1 ((hp.map QEntry.idx).nodup_iff.1 hnodup)
  have hidx : x.idx ≠ y.idx := fun he => hne (he ▸ List.mem_map_of_mem hy)
  have hbefore : x.before y = true :=
    (QEntry.before_total hidx).resolve_right (by simp [popMin_least h y hy])
  obtain ⟨n, hn, hnf⟩ := hfreq x (hp.mem_iff.2 (by simp))
  obtain ⟨n', hn', hnf'⟩ := hfreq y (hp.mem_iff.2 (by simp [hy]))
  exact ⟨n, n', hn, hn', by rwa [hnf, hnf', ← QEntry.before_iff]⟩

/-- The record a merge makes is made from the two least nodes of Q. -/
theorem MergeInv.mergesLeast {q q₁ q₂ : List QEntry} {i j : QEntry} (h : MergeInv q arena)
    (hi : popMin q = some (i, q₁)) (hj : popMin q₁ = some (j, q₂)) :
    MergesLeast (arena ++ [.internal (i.freq + j.freq) i.idx j.idx]) arena.length := by
  have hpi := popMin_perm hi
  have hpj := popMin_perm hj
  have hsub : ∀ e ∈ q₁, e ∈ q := fun e he => hpi.mem_iff.2 (by simp [he])
  have hnodup₁ := (List.nodup_cons.1 ((hpi.map QEntry.idx).nodup_iff.1 h.idx_nodup)).2
  have hfirst := popMin_nodeBefore h.freq h.idx_nodup hi
  have hsecond := popMin_nodeBefore (fun e he => h.freq e (hsub e he)) hnodup₁ hj
  have hjq : j ∈ q₁ := hpj.mem_iff.2 (by simp)
  have hbelow : ∀ e ∈ q, e.idx < arena.length := fun e he => by
    obtain ⟨_, hn, _⟩ := h.freq e he
    exact (List.getElem?_eq_some_iff.1 hn).1
  have hfree : ∀ e ∈ q, ¬ ChildBefore arena arena.length e.idx := fun e he =>
    (h.mem_queue_iff (hbelow e he)).1 ⟨e, he, rfl⟩
  have hiq : i ∈ q := hpi.mem_iff.2 (by simp)
  have hp : arena <+: arena ++ [.internal (i.freq + j.freq) i.idx j.idx] := List.prefix_append _ _
  have hchild := childBefore_of_prefix hp le_rfl
  intro f l r hm
  rw [List.getElem?_concat_length] at hm
  obtain ⟨_, rfl, rfl⟩ := Node.internal.inj (Option.some.inj hm)
  refine ⟨hbelow i hiq, hbelow j (hsub j hjq), mt (hchild _).1 (hfree i hiq), mt (hchild _).1 (hfree j (hsub j hjq)),
    nodeBefore_of_prefix hp (hfirst j hjq), fun k hk hki hkj hck => ?_⟩
  obtain ⟨e, he, rfl⟩ := (h.mem_queue_iff hk).2 (mt (hchild k).2 hck)
  have he₁ : e ∈ q₁ := (List.mem_cons.1 (hpi.mem_iff.1 he)).resolve_left fun heq => hki (by rw [heq])
  have he₂ : e ∈ q₂ := (List.mem_cons.1 (hpj.mem_iff.1 he₁)).resolve_left fun heq => hkj (by rw [heq])
  exact nodeBefore_of_prefix hp (hsecond e he₂)

end

/-- Every merge of the loop takes the two least nodes. -/
theorem mergeLoop_mergesLeast (fuel : Nat) {q : List QEntry} {arena : List Node} (h : MergeInv q arena)
    (hleast : ∀ m < arena.length, MergesLeast arena m) :
    ∀ m < (mergeLoop fuel q arena).length, MergesLeast (mergeLoop fuel q arena) m := by
  induction fuel generalizing q arena with
  | zero => exact hleast
  | succ fuel ih =>
    cases hi : popMin q with
    | none => simpa only [mergeLoop, hi] using hleast
    | some p =>
      obtain ⟨i, q₁⟩ := p
      cases hj : popMin q₁ with
      | none => simpa only [mergeLoop, hi, hj] using hleast
      | some p =>
        obtain ⟨j, q₂⟩ := p
        rw [mergeLoop_merge fuel arena hi hj]
        refine ih (h.of_perm ((popMin_perm hi).trans ((popMin_perm hj).cons i))).merge fun m hm => ?_
        rcases Nat.lt_succ_iff_lt_or_eq.1 (by simpa using hm : m < arena.length + 1) with hm | rfl
        · exact (hleast m hm).of_prefix (List.prefix_append _ _) hm
        · exact h.mergesLeast hi hj

/-- Leaves are merged from nothing. -/
theorem mergesLeast_of_isLeaf {leaves : List Node} (h : ∀ x ∈ leaves, x.isLeaf = true) (m : Nat) :
    MergesLeast leaves m := by
  intro f l r hm
  simpa using h _ (List.mem_of_getElem? hm)

theorem State.buildArena_mergesLeast (s : State) {m : Nat} (hm : m < (buildArena s.leafNodes).length) :
    MergesLeast (buildArena s.leafNodes) m :=
  mergeLoop_mergesLeast _ (MergeInv.initial s.leafNodes_isLeaf s.leafNodes_total)
    (fun m _ => mergesLeast_of_isLeaf s.leafNodes_isLeaf m) m hm

/-- Settles O34: the two entries popped are the least of Q, Q holds the nodes not merged so far, and `ArenaOk` gives the
sum. -/
theorem eachMergeTakesTheTwoLeastNodes : Obligations.EachMergeTakesTheTwoLeastNodes := by
  refine fun s => ⟨(treeBuildBody s).complete, rfl, fun m f l r hm => ?_⟩
  have hlt := (List.getElem?_eq_some_iff.1 hm).1
  obtain ⟨hl, hr, hcl, hcr, hlr, hrest⟩ := s.buildArena_mergesLeast hlt f l r hm
  obtain ⟨_, _, _, _, hchildren, _⟩ := s.arenaOk_buildArena
  obtain ⟨x, y, hx, hy, _, _, _, hsum⟩ := (childrenOk_internal hm).1 (hchildren m hlt)
  exact ⟨hl, hr, hcl, hcr, hlr, hrest, x, y, hx, hy, hsum⟩

/-! ## The table alone (R127) -/

theorem leafNodes_congr {s s' : State} (hkeys : ∀ b, s.isKey b = s'.isKey b)
    (hfreq : ∀ b, s.isKey b = true → s.freqOf b = s'.freqOf b) : s.leafNodes = s'.leafNodes := by
  have hk : s.keys = s'.keys := List.filter_congr fun b _ => hkeys b
  rw [State.leafNodes, State.leafNodes, ← hk]
  exact List.map_congr_left fun b hb => by rw [hfreq b (State.mem_keys.1 hb)]

/-- Settles O35: the body reads the state through its leaves only. -/
theorem treeDependsOnTheTableAlone : Obligations.TreeDependsOnTheTableAlone := by
  intro s s' hkeys hfreq
  have harena : buildArena s.leafNodes = buildArena s'.leafNodes :=
    congrArg buildArena (leafNodes_congr hkeys hfreq)
  exact ⟨(treeBuildBody s).complete, (treeBuildBody s').complete, rfl, rfl, harena, congrArg rootOf harena,
    congrArg (fun arena => codes arena (rootOf arena)) harena⟩

end Sys2Proof.Machine
end

section
/-! PROOFS. The paths of a tree and the codes they give (41_tree.md R128, R130 to R133), for every arena that meets
`ArenaOk`. -/

namespace Sys2Proof.Machine

open Sys2Proof.Claims

/-! ## Paths (R130) -/

/-- The index of the record a path leads to from record k. -/
def descend (arena : List Node) : Nat → BitString → Option Nat
  | k, [] => some k
  | k, bit :: bits =>
    match arena[k]? with
    | some (.internal _ left right) => descend arena (if bit then right else left) bits
    | _ => none

section
variable {arena : List Node} {k : Nat}

theorem descend_internal {f : NodeFreq} {l r : Nat} (hk : arena[k]? = some (.internal f l r)) (bit : Bool)
    (c : BitString) : descend arena k (bit :: c) = descend arena (if bit then r else l) c := by
  rw [descend, hk]

/-- Only an internal record has edges to follow. -/
theorem internal_of_descend_cons {bit : Bool} {c : BitString} {j : Nat} (h : descend arena k (bit :: c) = some j) :
    ∃ f l r, arena[k]? = some (.internal f l r) := by
  rw [descend] at h
  split at h
  next f l r hk => exact ⟨f, l, r, hk⟩
  next => simp at h

theorem descend_append (k : Nat) (c d : BitString) :
    descend arena k (c ++ d) = (descend arena k c).bind fun j => descend arena j d := by
  induction c generalizing k with
  | nil => rfl
  | cons bit c ih =>
    rw [List.cons_append, descend, descend]
    split
    · exact ih _
    · rfl

/-- The last edge of a path. -/
theorem descend_concat {c : BitString} {bit : Bool} {j : Nat} (h : descend arena k (c ++ [bit]) = some j) :
    ∃ (m : Nat) (f : NodeFreq) (l r : Nat),
      descend arena k c = some m ∧ arena[m]? = some (.internal f l r) ∧ j = if bit then r else l := by
  rw [descend_append, Option.bind_eq_some_iff] at h
  obtain ⟨m, hc, hm⟩ := h
  obtain ⟨f, l, r, hn⟩ := internal_of_descend_cons hm
  rw [descend_internal hn, descend] at hm
  exact ⟨m, f, l, r, hc, hn, (Option.some.inj hm).symm⟩

theorem follow_eq_descend (k : Nat) (c : BitString) :
    follow arena k c = (descend arena k c).bind fun j => arena[j]? := by
  induction c generalizing k with
  | nil => rfl
  | cons bit c ih =>
    rw [follow, descend]
    cases arena[k]? with
    | none => rfl
    | some x =>
      cases x with
      | leaf => rfl
      | internal => exact ih _

theorem follow_eq_some {c : BitString} {x : Node} :
    follow arena k c = some x ↔ ∃ j, descend arena k c = some j ∧ arena[j]? = some x := by
  rw [follow_eq_descend, Option.bind_eq_some_iff]

end

/-! ## Paths in a strict binary tree (10_state.md R46) -/

/-- Where exactly one element of a list satisfies a predicate, only one index has such an element. -/
theorem index_unique_of_countP_eq_one {p : Node → Bool} {l : List Node} (h : l.countP p = 1) {m m' : Nat} {x y : Node}
    (hx : l[m]? = some x) (hy : l[m']? = some y) (hpx : p x = true) (hpy : p y = true) : m = m' := by
  have hlt : ∀ {m m' : Nat} {x y : Node}, l[m]? = some x → l[m']? = some y → p x = true → p y = true → ¬ m < m' := by
    intro m m' x y hx hy hpx hpy hlt
    have htake : 0 < (l.take m').countP p :=
      List.countP_pos_iff.2 ⟨x, List.mem_of_getElem? (by rw [List.getElem?_take_of_lt hlt, hx]), hpx⟩
    have hdrop : 0 < (l.drop m').countP p :=
      List.countP_pos_iff.2 ⟨y, List.mem_of_getElem? (i := 0) (by rw [List.getElem?_drop, Nat.add_zero, hy]), hpy⟩
    have hsum : (l.take m').countP p + (l.drop m').countP p = 1 := by
      rw [← List.countP_append, List.take_append_drop, h]
    omega
  have h₁ := hlt hx hy hpx hpy
  have h₂ := hlt hy hx hpy hpx
  omega

section
variable {arena : List Node} {k : Nat}

theorem ArenaOk.children {f : NodeFreq} {l r : Nat} (h : ArenaOk arena) (hk : arena[k]? = some (.internal f l r)) :
    l < k ∧ r < k ∧ l ≠ r := by
  obtain ⟨_, _, _, _, hchildren, _⟩ := h
  obtain ⟨_, _, _, _, hl, hr, hne, _⟩ := (childrenOk_internal hk).1 (hchildren k (List.getElem?_eq_some_iff.1 hk).1)
  exact ⟨hl, hr, hne⟩

theorem ArenaOk.child_lt {f : NodeFreq} {l r : Nat} (h : ArenaOk arena) (hk : arena[k]? = some (.internal f l r))
    (bit : Bool) : (if bit then r else l) < k := by
  obtain ⟨hl, hr, _⟩ := h.children hk
  cases bit
  · exact hl
  · exact hr

/-- A path of L edges goes down by at least L records. -/
theorem ArenaOk.descend_le {c : BitString} {j : Nat} (h : ArenaOk arena) (hc : descend arena k c = some j) :
    j + c.length ≤ k := by
  induction c generalizing k with
  | nil => exact (Option.some.inj hc).ge
  | cons bit c ih =>
    obtain ⟨f, l, r, hk⟩ := internal_of_descend_cons hc
    have hle := ih ((descend_internal hk bit c).symm.trans hc)
    have hlt := h.child_lt hk bit
    rw [List.length_cons]
    omega

/-- A record is the child of one record only. -/
theorem ArenaOk.parent_unique {m m' : Nat} {x y : Node} (h : ArenaOk arena) (hx : arena[m]? = some x)
    (hy : arena[m']? = some y) (hxk : x.hasChild k = true) (hyk : y.hasChild k = true) : m = m' := by
  obtain ⟨_, _, _, _, hchildren, honce⟩ := h
  have hm := (List.getElem?_eq_some_iff.1 hx).1
  have hk := hasChild_lt hx (hchildren m hm) hxk
  exact index_unique_of_countP_eq_one (honce k (by omega)) hx hy hxk hyk

/-- Every record but the last is the left or the right child of some record. -/
theorem ArenaOk.exists_parent (h : ArenaOk arena) (hk : k < arena.length - 1) :
    ∃ (m : Nat) (f : NodeFreq) (l r : Nat),
      arena[m]? = some (.internal f l r) ∧ ∃ bit : Bool, k = if bit then r else l := by
  obtain ⟨_, _, _, _, _, honce⟩ := h
  obtain ⟨x, hx, hxk⟩ := List.countP_pos_iff.1 (Nat.lt_of_lt_of_eq Nat.one_pos (honce k hk).symm)
  obtain ⟨m, hm⟩ := List.mem_iff_getElem?.1 hx
  cases x with
  | leaf => simp at hxk
  | internal f l r =>
    rcases Node.hasChild_iff.1 hxk with rfl | rfl
    · exact ⟨m, f, k, r, hm, false, rfl⟩
    · exact ⟨m, f, l, k, hm, true, rfl⟩

/-- There is a path from the root to every record. -/
theorem ArenaOk.exists_descend (h : ArenaOk arena) (hk : k < arena.length) :
    ∃ c, descend arena (arena.length - 1) c = some k := by
  induction hn : arena.length - k using Nat.strong_induction_on generalizing k with
  | _ n ih =>
    by_cases hroot : k = arena.length - 1
    · exact ⟨[], by rw [descend, hroot]⟩
    · obtain ⟨m, f, l, r, hm, bit, rfl⟩ := h.exists_parent (k := k) (by omega)
      have hlt := h.child_lt hm bit
      have hmlt := (List.getElem?_eq_some_iff.1 hm).1
      obtain ⟨c, hc⟩ := ih _ (by omega) hmlt rfl
      exact ⟨c ++ [bit], by rw [descend_append, hc, Option.bind_some, descend_internal hm, descend]⟩

/-- There is only one path from the root to a record. -/
theorem ArenaOk.descend_inj {c d : BitString} (h : ArenaOk arena)
    (hc : descend arena (arena.length - 1) c = some k) (hd : descend arena (arena.length - 1) d = some k) :
    c = d := by
  induction c using List.reverseRecOn generalizing d k with
  | nil =>
    obtain rfl := Option.some.inj hc
    have := h.descend_le hd
    exact (List.length_eq_zero_iff.1 (by omega)).symm
  | append_singleton c bit ih =>
    have hle := h.descend_le hc
    rcases List.eq_nil_or_concat' d with rfl | ⟨d, bit', rfl⟩
    · obtain rfl := Option.some.inj hd
      simp at hle
    · obtain ⟨m, f, l, r, hcm, hm, hk⟩ := descend_concat hc
      obtain ⟨m', f', l', r', hdm, hm', hk'⟩ := descend_concat hd
      have hchild : ∀ {f : NodeFreq} {l r : Nat} {bit : Bool}, k = (if bit then r else l) →
          (Node.internal f l r).hasChild k = true :=
        fun {_ _ _ bit} hk => Node.hasChild_iff.2 (by cases bit <;> simp_all)
      obtain rfl := h.parent_unique hm hm' (hchild hk) (hchild hk')
      obtain ⟨_, rfl, rfl⟩ := Node.internal.inj (Option.some.inj (hm.symm.trans hm'))
      obtain ⟨_, _, hne⟩ := h.children hm
      have hbit : bit = bit' := by cases bit <;> cases bit' <;> simp_all
      rw [ih hcm hdm, hbit]

/-- Two records that are leaves of the same symbol are the same record. -/
theorem ArenaOk.leaf_inj {k' : Nat} {b : Symbol} {f f' : NodeFreq} (h : ArenaOk arena)
    (hk : arena[k]? = some (.leaf b f)) (hk' : arena[k']? = some (.leaf b f')) : k = k' := by
  have hlt := (h.isLeaf_iff hk).1 rfl
  have hlt' := (h.isLeaf_iff hk').1 rfl
  obtain ⟨_, _, _, hascending, _⟩ := id h
  have htake : ∀ {k x}, k < leafCount arena → arena[k]? = some x → (arena.take (leafCount arena))[k]? = some x :=
    fun hlt hx => (List.getElem?_take_of_lt hlt).trans hx
  rw [List.pairwise_filterMap, List.pairwise_iff_getElem] at hascending
  obtain ⟨hi, hget⟩ := List.getElem?_eq_some_iff.1 (htake hlt hk)
  obtain ⟨hi', hget'⟩ := List.getElem?_eq_some_iff.1 (htake hlt' hk')
  rcases Nat.lt_trichotomy k k' with hlt | heq | hgt
  · exact absurd (hascending k k' hi hi' hlt b (by rw [hget]; rfl) b (by rw [hget']; rfl)) (Nat.lt_irrefl _)
  · exact heq
  · exact absurd (hascending k' k hi' hi hgt b (by rw [hget']; rfl) b (by rw [hget]; rfl)) (Nat.lt_irrefl _)

end

end Sys2Proof.Machine
end

section
/-! PROOFS. The code map of a tree (41_tree.md R130 to R133), for every arena that meets `ArenaOk`. -/

namespace Sys2Proof.Machine

open Sys2Proof.Claims

/-! ## The walk (R130) -/

section
variable {arena : List Node} {k : Nat}

/-- A walk finds exactly the leaves below a record, each with its path. -/
theorem ArenaOk.mem_walk {fuel : Nat} {p c : BitString} {b : Symbol} (h : ArenaOk arena) (hk : k < fuel) :
    (b, c) ∈ walk arena fuel k p ↔ ∃ d f, c = p ++ d ∧ follow arena k d = some (.leaf b f) := by
  induction fuel generalizing k p with
  | zero => exact absurd hk (Nat.not_lt_zero k)
  | succ fuel ih =>
    rw [walk]
    cases hx : arena[k]? with
    | none =>
      refine iff_of_false List.not_mem_nil ?_
      rintro ⟨d, f, _, hd⟩
      cases d <;> simp [follow, hx] at hd
    | some x =>
      cases x with
      | leaf b' f' =>
        constructor
        · intro hmem
          obtain ⟨rfl, rfl⟩ := Prod.mk.inj (List.mem_singleton.1 hmem)
          exact ⟨[], f', (List.append_nil _).symm, hx⟩
        · rintro ⟨d, f, rfl, hd⟩
          cases d <;> simp_all [follow]
      | internal f' l r =>
        obtain ⟨hl, hr, _⟩ := h.children hx
        have hl' := ih (k := l) (p := p ++ [false]) (by omega)
        have hr' := ih (k := r) (p := p ++ [true]) (by omega)
        refine List.mem_append.trans ((or_congr hl' hr').trans ?_)
        constructor
        · rintro (⟨d, f, rfl, hd⟩ | ⟨d, f, rfl, hd⟩)
          · exact ⟨false :: d, f, (List.append_cons ..).symm, by simpa [follow, hx] using hd⟩
          · exact ⟨true :: d, f, (List.append_cons ..).symm, by simpa [follow, hx] using hd⟩
        · rintro ⟨d, f, rfl, hd⟩
          cases d with
          | nil => simp [follow, hx] at hd
          | cons bit d =>
            cases bit
            · exact .inl ⟨d, f, List.append_cons .., by simpa [follow, hx] using hd⟩
            · exact .inr ⟨d, f, List.append_cons .., by simpa [follow, hx] using hd⟩

/-- A walk finds no path twice: the paths of the left half and the right half differ after `p`. -/
theorem walk_paths_nodup (fuel k : Nat) (p : BitString) : ((walk arena fuel k p).map Prod.snd).Nodup := by
  induction fuel generalizing k p with
  | zero => exact List.nodup_nil
  | succ fuel ih =>
    rw [walk]
    split
    · exact List.nodup_nil
    · exact List.nodup_singleton _
    next l r _ =>
      rw [List.map_append]
      refine (ih _ _).append (ih _ _) ?_
      rw [List.disjoint_left]
      intro c hc hd
      obtain ⟨e, he, rfl⟩ := List.mem_map.1 hc
      obtain ⟨e', he', heq⟩ := List.mem_map.1 hd
      have hleft := walk_extends arena fuel l (p ++ [false]) e he
      have hright := heq ▸ walk_extends arena fuel r (p ++ [true]) e' he'
      have := List.append_inj_right' (List.IsPrefix.eq_of_length (List.prefix_of_prefix_length_le hleft hright
        (by simp)) (by simp)) rfl
      simp at this

/-- The codes a walk finds share the weight of the path it starts with: each edge halves it. -/
theorem ArenaOk.walk_weight {fuel : Nat} (p : BitString) (h : ArenaOk arena) (hk : k < fuel)
    (hlt : k < arena.length) :
    ((walk arena fuel k p).map fun e => (1 / 2 : ℚ) ^ e.2.length).sum = (1 / 2) ^ p.length := by
  induction fuel generalizing k p with
  | zero => exact absurd hk (Nat.not_lt_zero k)
  | succ fuel ih =>
    rw [walk]
    cases hx : arena[k]? with
    | none => exact absurd (List.getElem?_eq_none_iff.1 hx) (by omega)
    | some x =>
      cases x with
      | leaf b f => simp
      | internal f l r =>
        obtain ⟨hl, hr, _⟩ := h.children hx
        have hhalves : (1 / 2 : ℚ) ^ (p ++ [false]).length + (1 / 2) ^ (p ++ [true]).length = (1 / 2) ^ p.length := by
          simp only [List.length_append, List.length_singleton, pow_succ]
          ring
        rw [← hhalves, ← ih (p ++ [false]) (by omega) (hl.trans hlt), ← ih (p ++ [true]) (by omega) (hr.trans hlt),
          ← List.sum_append, ← List.map_append]

/-! ## The code map (R125, R130, R131) -/

/-- Everything the code map can be: that of the empty tree, of a single leaf, or the walk from an internal root. -/
theorem ArenaOk.codes_cases (h : ArenaOk arena) :
    (leafCount arena = 0 ∧ codes arena (rootOf arena) = []) ∨
    (leafCount arena = 1 ∧ ∃ b f, arena = [.leaf b f] ∧ codes arena (rootOf arena) = [(b, [false])]) ∨
    (2 ≤ leafCount arena ∧ (∃ f l r, arena[arena.length - 1]? = some (.internal f l r)) ∧
      codes arena (rootOf arena) = walk arena arena.length (arena.length - 1) []) := by
  have hlen := h.length_eq
  rcases Nat.lt_trichotomy (leafCount arena) 1 with h0 | h1 | h2
  · have hnil : arena = [] := List.length_eq_zero_iff.1 (by omega)
    exact .inl ⟨by omega, by rw [hnil]; rfl⟩
  · obtain ⟨x, rfl⟩ := List.length_eq_one_iff.1 (show arena.length = 1 by omega)
    have hleaf := (h.isLeaf_iff (k := 0) (x := x) rfl).2 (by omega)
    cases x with
    | leaf b f => exact .inr (.inl ⟨h1, b, f, rfl, rfl⟩)
    | internal => simp at hleaf
  · have hlast : arena.length - 1 < arena.length := by omega
    have hx := List.getElem?_eq_getElem hlast
    have hroot : rootOf arena = some (arena.length - 1) := if_neg (by omega)
    have hinner := (h.isLeaf_iff hx).not.2 (by omega)
    cases hn : arena[arena.length - 1] with
    | leaf => simp [hn] at hinner
    | internal f l r =>
      rw [hn] at hx
      refine .inr (.inr ⟨h2, ⟨f, l, r, hx⟩, ?_⟩)
      simp only [hroot, codes, hx, Nat.sub_add_cancel (Nat.one_le_of_lt hlast)]

/-- With at least two leaves the codes are the paths from the root to a leaf. -/
theorem ArenaOk.mem_codes_iff {b : Symbol} {c : BitString} (h : ArenaOk arena) (h2 : 2 ≤ leafCount arena) :
    (b, c) ∈ codes arena (rootOf arena) ↔ ∃ f, follow arena (arena.length - 1) c = some (.leaf b f) := by
  have hlen := h.length_eq
  rcases h.codes_cases with ⟨h0, _⟩ | ⟨h1, _⟩ | ⟨_, _, hcodes⟩
  · omega
  · omega
  · rw [hcodes, h.mem_walk (by omega)]
    simp

/-- A code is the path to a leaf of its symbol. -/
theorem ArenaOk.mem_codes_iff_descend {b : Symbol} {c : BitString} (h : ArenaOk arena) (h2 : 2 ≤ leafCount arena) :
    (b, c) ∈ codes arena (rootOf arena) ↔
      ∃ j f, descend arena (arena.length - 1) c = some j ∧ arena[j]? = some (.leaf b f) := by
  simp only [h.mem_codes_iff h2, follow_eq_some]
  exact exists_comm

theorem ArenaOk.codes_paths_nodup (h : ArenaOk arena) : ((codes arena (rootOf arena)).map Prod.snd).Nodup := by
  rcases h.codes_cases with ⟨_, hcodes⟩ | ⟨_, b, f, _, hcodes⟩ | ⟨_, _, hcodes⟩ <;> rw [hcodes]
  · exact List.nodup_nil
  · exact List.nodup_singleton _
  · exact walk_paths_nodup _ _ _

/-- A symbol has at most one code. -/
theorem ArenaOk.code_unique {b : Symbol} {c d : BitString} (h : ArenaOk arena)
    (hc : (b, c) ∈ codes arena (rootOf arena)) (hd : (b, d) ∈ codes arena (rootOf arena)) : c = d := by
  rcases h.codes_cases with ⟨_, hcodes⟩ | ⟨_, _, _, _, hcodes⟩ | ⟨h2, _, _⟩
  · simp [hcodes] at hc
  · simp_all
  · obtain ⟨j, f, hcj, hj⟩ := (h.mem_codes_iff_descend h2).1 hc
    obtain ⟨j', f', hdj, hj'⟩ := (h.mem_codes_iff_descend h2).1 hd
    obtain rfl := h.leaf_inj hj hj'
    exact h.descend_inj hcj hdj

/-- No symbol's code begins another's (R133): a path ends where it meets a leaf. -/
theorem ArenaOk.codes_prefixFree {a b : Symbol} {c d : BitString} (h : ArenaOk arena)
    (hc : (a, c) ∈ codes arena (rootOf arena)) (hd : (b, d) ∈ codes arena (rootOf arena)) (hp : c <+: d) : a = b := by
  rcases h.codes_cases with ⟨_, hcodes⟩ | ⟨_, _, _, _, hcodes⟩ | ⟨h2, _, _⟩
  · simp [hcodes] at hc
  · simp_all
  · obtain ⟨j, f, hcj, hj⟩ := (h.mem_codes_iff_descend h2).1 hc
    obtain ⟨j', f', hdj, hj'⟩ := (h.mem_codes_iff_descend h2).1 hd
    obtain ⟨e, rfl⟩ := hp
    rw [descend_append, hcj, Option.bind_some] at hdj
    cases e with
    | nil =>
      obtain rfl := Option.some.inj hdj
      exact (Node.leaf.inj (Option.some.inj (hj.symm.trans hj'))).1
    | cons bit e =>
      obtain ⟨_, _, _, hinner⟩ := internal_of_descend_cons hdj
      simp [hj] at hinner

/-- A code has at least one bit, and at most one for each internal record but at least one (R128, R131). -/
theorem ArenaOk.code_length {b : Symbol} {c : BitString} (h : ArenaOk arena)
    (hc : (b, c) ∈ codes arena (rootOf arena)) : 1 ≤ c.length ∧ c.length ≤ max 1 (leafCount arena - 1) := by
  have hlen := h.length_eq
  rcases h.codes_cases with ⟨_, hcodes⟩ | ⟨_, _, _, _, hcodes⟩ | ⟨h2, ⟨f, l, r, hroot⟩, _⟩
  · simp [hcodes] at hc
  · simp_all
  · obtain ⟨j, _, hcj, hj⟩ := (h.mem_codes_iff_descend h2).1 hc
    rcases List.eq_nil_or_concat' c with rfl | ⟨c, bit, rfl⟩
    · obtain rfl := Option.some.inj hcj
      simp [hroot] at hj
    · obtain ⟨m, _, _, _, hcm, hm, _⟩ := descend_concat hcj
      have hinner := (h.isLeaf_iff hm).not.1 (by simp)
      have hle := h.descend_le hcm
      simp only [List.length_append, List.length_singleton]
      omega

/-- The symbols with a code are those of the leaves. -/
theorem ArenaOk.exists_code_iff {b : Symbol} (h : ArenaOk arena) :
    (∃ c, (b, c) ∈ codes arena (rootOf arena)) ↔ ∃ (k : Nat) (f : NodeFreq), arena[k]? = some (.leaf b f) := by
  rcases h.codes_cases with ⟨h0, hcodes⟩ | ⟨_, b', f', harena, hcodes⟩ | ⟨h2, _, _⟩
  · have hlen := h.length_eq
    have hnil : arena = [] := List.length_eq_zero_iff.1 (by omega)
    rw [hcodes, hnil]
    simp
  · rw [hcodes, harena]
    constructor
    · rintro ⟨c, hc⟩
      obtain ⟨rfl, _⟩ := Prod.mk.inj (List.mem_singleton.1 hc)
      exact ⟨0, f', rfl⟩
    · rintro ⟨k, f, hk⟩
      obtain ⟨rfl, _⟩ := Node.leaf.inj (List.mem_singleton.1 (List.mem_of_getElem? hk))
      exact ⟨[false], List.mem_singleton.2 rfl⟩
  · constructor
    · rintro ⟨c, hc⟩
      obtain ⟨j, f, _, hj⟩ := (h.mem_codes_iff_descend h2).1 hc
      exact ⟨j, f, hj⟩
    · rintro ⟨k, f, hk⟩
      obtain ⟨c, hc⟩ := h.exists_descend (List.getElem?_eq_some_iff.1 hk).1
      exact ⟨c, (h.mem_codes_iff_descend h2).2 ⟨k, f, hc, hk⟩⟩

/-! ## Looking a symbol or a code up (R132, R134) -/

/-- In a list of pairs that is a partial function, a lookup finds exactly the pairs. -/
theorem lookup_eq_some_iff_mem {α β : Type} [BEq α] [LawfulBEq α] {m : List (α × β)}
    (hfun : ∀ a b b', (a, b) ∈ m → (a, b') ∈ m → b = b') {a : α} {b : β} : m.lookup a = some b ↔ (a, b) ∈ m := by
  have hmem : ∀ {b}, m.lookup a = some b → (a, b) ∈ m := fun hb => by
    obtain ⟨l₁, l₂, rfl, _⟩ := List.lookup_eq_some_iff.1 hb
    simp
  refine ⟨hmem, fun hb => ?_⟩
  have hsome : (m.lookup a).isSome = true := List.lookup_isSome_iff.2 ⟨(a, b), hb, beq_self_eq_true a⟩
  obtain ⟨b', hb'⟩ := Option.isSome_iff_exists.1 hsome
  rw [hb', hfun a b b' hb (hmem hb')]

theorem ArenaOk.lookup_codes {b : Symbol} {c : BitString} (h : ArenaOk arena) :
    (codes arena (rootOf arena)).lookup b = some c ↔ (b, c) ∈ codes arena (rootOf arena) :=
  lookup_eq_some_iff_mem fun _ _ _ hc hd => h.code_unique hc hd

/-- The code→symbol table is the inverse of the code map (R132). -/
theorem ArenaOk.lookup_c2sTable {b : Symbol} {c : BitString} (h : ArenaOk arena) :
    (c2sTable (codes arena (rootOf arena))).lookup c = some b ↔ (codes arena (rootOf arena)).lookup b = some c := by
  have hmem : ∀ b c, (c, b) ∈ c2sTable (codes arena (rootOf arena)) ↔ (b, c) ∈ codes arena (rootOf arena) :=
    fun b c => by simp [c2sTable]
  rw [h.lookup_codes, ← hmem]
  exact lookup_eq_some_iff_mem fun c a b ha hb =>
    h.codes_prefixFree ((hmem a c).1 ha) ((hmem b c).1 hb) List.prefix_rfl

/-! ## Completeness (R133) -/

theorem allSymbols_nodup : allSymbols.Nodup := allSymbols_ascending.imp fun h he => by simp [he] at h

/-- Looking every symbol up in a code map without repetitions gives its codes. -/
theorem filterMap_lookup_perm {m : List (Symbol × BitString)} (hnodup : m.Nodup)
    (hlookup : ∀ b c, m.lookup b = some c ↔ (b, c) ∈ m) :
    (allSymbols.filterMap fun b => m.lookup b).Perm (m.map Prod.snd) := by
  have hpairs : (allSymbols.filterMap fun b => (m.lookup b).map (Prod.mk b)).Perm m := by
    refine (List.perm_ext_iff_of_nodup (allSymbols_nodup.filterMap ?_) hnodup).2 fun ⟨b, c⟩ => ?_
    · intro a a' e ha ha'
      obtain ⟨_, _, rfl⟩ := Option.map_eq_some_iff.1 ha
      obtain ⟨_, _, heq⟩ := Option.map_eq_some_iff.1 ha'
      exact (Prod.mk.inj heq).1.symm
    · rw [← hlookup]
      simp [mem_allSymbols]
  have hcodes := hpairs.map Prod.snd
  rw [List.map_filterMap] at hcodes
  simpa [Function.comp_def] using hcodes

/-- With at least two leaves the code set is complete: the weights 2^(−length) sum to 1. -/
theorem ArenaOk.codes_weight (h : ArenaOk arena) (h2 : 2 ≤ leafCount arena) :
    ((allSymbols.filterMap fun b => (codes arena (rootOf arena)).lookup b).map
      fun c => (1 / 2 : ℚ) ^ c.length).sum = 1 := by
  have hlen := h.length_eq
  have hperm := filterMap_lookup_perm h.codes_paths_nodup.of_map fun _ _ => h.lookup_codes
  rw [(hperm.map _).sum_eq, List.map_map]
  rcases h.codes_cases with ⟨h0, _⟩ | ⟨h1, _⟩ | ⟨_, _, hcodes⟩
  · omega
  · omega
  · rw [hcodes]
    exact (h.walk_weight (k := arena.length - 1) [] (by omega) (by omega)).trans (pow_zero _)

end

/-! ## The codes of a table's tree -/

theorem State.lookup_codes_treeBuild (s : State) {b : Symbol} {c : BitString} :
    (treeBuildBody s).complete.codes.lookup b = some c ↔ (b, c) ∈ (treeBuildBody s).complete.codes :=
  s.arenaOk_buildArena.lookup_codes

/-- Settles O36: the three cases of the code map, and for two or more leaves `ArenaOk.mem_codes_iff`. -/
theorem codesAreTheRootToLeafPaths : Obligations.CodesAreTheRootToLeafPaths := by
  intro s
  have hok := s.arenaOk_buildArena
  have hcount := s.leafCount_buildArena
  refine ⟨(treeBuildBody s).complete, rfl, fun h2 b c => ?_, fun h1 => ?_, fun h0 => ?_⟩
  · have hroot : rootOf (buildArena s.leafNodes) = some ((buildArena s.leafNodes).length - 1) :=
      if_neg (by have := hok.length_eq; omega)
    rw [s.lookup_codes_treeBuild]
    refine (hok.mem_codes_iff (hcount.symm ▸ h2)).trans ?_
    simp [treeBuildBody, hroot]
  · rcases hok.codes_cases with ⟨h0, _⟩ | ⟨_, b, f, harena, hcodes⟩ | ⟨h2, _, _⟩
    · omega
    · exact ⟨b, (State.isKey_of_buildArena_leaf (s := s) (k := 0) (f := f) (by rw [harena]; rfl)).1, hcodes⟩
    · omega
  · rcases hok.codes_cases with ⟨_, hcodes⟩ | ⟨h1, _⟩ | ⟨h2, _, _⟩
    · exact hcodes
    · omega
    · omega

/-- Settles O37: leaves are keys, a path ends at its leaf, and each edge halves the weight of a path. -/
theorem codeSetIsPrefixFreeAndComplete : Obligations.CodeSetIsPrefixFreeAndComplete := by
  intro s
  have hok := s.arenaOk_buildArena
  refine ⟨(treeBuildBody s).complete, rfl, fun b => ?_, fun a b c d hab hc hd hp => ?_,
    fun h2 => hok.codes_weight (s.leafCount_buildArena.symm ▸ h2)⟩
  · rw [Bool.eq_iff_iff, Option.isSome_iff_exists]
    simp only [s.lookup_codes_treeBuild]
    refine hok.exists_code_iff.trans ⟨?_, fun hb => ⟨_, _, State.buildArena_leaf_of_isKey hb⟩⟩
    rintro ⟨k, f, hk⟩
    exact (State.isKey_of_buildArena_leaf hk).1
  · exact hab (hok.codes_prefixFree (s.lookup_codes_treeBuild.1 hc) (s.lookup_codes_treeBuild.1 hd) hp)

/-- Settles O38: a path passes through distinct internal records, and there are fewer of them than keys. -/
theorem codesAreShorterThanTheKeysAreMany : Obligations.CodesAreShorterThanTheKeysAreMany := by
  refine fun s => ⟨(treeBuildBody s).complete, rfl, fun b c hc => ?_⟩
  have hlength := s.arenaOk_buildArena.code_length (s.lookup_codes_treeBuild.1 hc)
  have hle := popcount_le s.present
  rw [s.leafCount_buildArena] at hlength
  exact ⟨hlength.1, hlength.2, hlength.2.trans (max_le (by decide) (Nat.sub_le_of_le_add hle))⟩

end Sys2Proof.Machine
end

section
/-! PROOFS. The tree of 256 keys with equal counts is balanced, and its codes are the binary numerals (41_tree.md R137). -/

namespace Sys2Proof.Machine

open Sys2Proof.Claims

/-! ## Frequencies by index -/

/-- NODE[k].freq as a number, 0 where there is no record k. -/
def freqAt (arena : List Node) (k : Nat) : Nat := (arena[k]?.map fun x => x.freq.toNat).getD 0

section
variable {arena : List Node} {k : Nat}

theorem freqAt_of_getElem? {x : Node} (h : arena[k]? = some x) : freqAt arena k = x.freq.toNat := by
  rw [freqAt, h]
  rfl

theorem ArenaOk.freqAt_internal {f : NodeFreq} {l r : Nat} (h : ArenaOk arena)
    (hk : arena[k]? = some (.internal f l r)) : freqAt arena k = freqAt arena l + freqAt arena r := by
  obtain ⟨_, _, _, _, hchildren, _⟩ := h
  obtain ⟨x, y, hx, hy, _, _, _, hsum⟩ := (childrenOk_internal hk).1 (hchildren k (List.getElem?_eq_some_iff.1 hk).1)
  rw [freqAt_of_getElem? hk, freqAt_of_getElem? hx, freqAt_of_getElem? hy, ← hsum]
  rfl

/-- Where the frequencies do not fall from i to j, the priority order is the order of the indices. -/
theorem lt_of_nodeBefore {i j : Nat} (h : NodeBefore arena i j) (hle : j ≤ i → freqAt arena j ≤ freqAt arena i) :
    i < j := by
  obtain ⟨x, y, hx, hy, hlt⟩ := h
  rw [freqAt_of_getElem? hx, freqAt_of_getElem? hy] at hle
  omega

end

/-! ## The balanced arena -/

/-- An arena that TREE_BUILD may make from 256 leaves of one frequency. -/
structure EqualLeaves (arena : List Node) (f : NodeFreq) : Prop where
  ok : ArenaOk arena
  count : leafCount arena = 256
  least : ∀ m < arena.length, MergesLeast arena m
  leaf : ∀ b : Symbol, arena[b.toNat]? = some (.leaf b f)

section
variable {arena : List Node} {f : NodeFreq}

theorem EqualLeaves.length (h : EqualLeaves arena f) : arena.length = 511 := by
  rw [h.ok.length_eq, h.count]

theorem EqualLeaves.freqAt_leaf (h : EqualLeaves arena f) {k : Nat} (hk : k < 256) : freqAt arena k = f.toNat := by
  have hleaf := h.leaf (BitVec.ofNat 8 k)
  rw [BitVec.toNat_ofNat, Nat.mod_eq_of_lt hk] at hleaf
  exact freqAt_of_getElem? hleaf

theorem EqualLeaves.le_of_internal (h : EqualLeaves arena f) {k l r : Nat} {g : NodeFreq}
    (hk : arena[k]? = some (.internal g l r)) : 256 ≤ k := by
  have := (h.ok.isLeaf_iff hk).not.1 (by simp)
  rw [h.count] at this
  omega

theorem EqualLeaves.exists_internal (h : EqualLeaves arena f) {k : Nat} (hk : 256 ≤ k) (hlt : k < 511) :
    ∃ g l r, arena[k]? = some (.internal g l r) := by
  have hx := List.getElem?_eq_getElem (show k < arena.length by rw [h.length]; exact hlt)
  have hinner := (h.ok.isLeaf_iff hx).not.2 (by rw [h.count]; omega)
  cases hn : arena[k]'(h.length.symm ▸ hlt) with
  | leaf => simp [hn] at hinner
  | internal g l r => exact ⟨g, l, r, by rw [hx, hn]⟩

/-- Merge i takes records 2i and 2i + 1, and the frequency of its record is no less than that of the one before. -/
def PairsAt (arena : List Node) (i : Nat) : Prop :=
  (∃ g, arena[256 + i]? = some (.internal g (2 * i) (2 * i + 1))) ∧ freqAt arena (255 + i) ≤ freqAt arena (256 + i)

/-- As far as the merges took pairs in order, frequencies rise with the index. -/
theorem EqualLeaves.freqAt_mono (h : EqualLeaves arena f) {i : Nat} (hpairs : ∀ i' < i, PairsAt arena i') {k k' : Nat}
    (hle : k ≤ k') (hk' : k' < 256 + i) : freqAt arena k ≤ freqAt arena k' := by
  induction k', hle using Nat.le_induction with
  | base => exact le_rfl
  | succ k' hle ih =>
    refine (ih (by omega)).trans ?_
    by_cases hleaf : k' + 1 < 256
    · rw [h.freqAt_leaf hleaf, h.freqAt_leaf (by omega)]
    · obtain ⟨i', rfl⟩ : ∃ i', k' = 255 + i' := ⟨k' - 255, by omega⟩
      have hstep := (hpairs i' (by omega)).2
      rwa [show 256 + i' = 255 + i' + 1 by omega] at hstep

/-- As far as the merges took pairs in order, the records merged before merge i are those below 2i. -/
theorem EqualLeaves.childBefore_iff (h : EqualLeaves arena f) {i : Nat} (hpairs : ∀ i' < i, PairsAt arena i')
    (k : Nat) :
    ChildBefore arena (256 + i) k ↔ k < 2 * i := by
  constructor
  · rintro ⟨m, hm, g, l, r, hn, hk⟩
    obtain ⟨i', rfl⟩ : ∃ i', m = 256 + i' := ⟨m - 256, by have := h.le_of_internal hn; omega⟩
    obtain ⟨⟨g', hn'⟩, _⟩ := hpairs i' (by omega)
    obtain ⟨_, rfl, rfl⟩ := Node.internal.inj (Option.some.inj (hn'.symm.trans hn))
    omega
  · intro hk
    obtain ⟨⟨g, hn⟩, _⟩ := hpairs (k / 2) (by omega)
    exact ⟨256 + k / 2, by omega, g, _, _, hn, by omega⟩

/-- Pairs of records merge in ascending order (R137). -/
theorem EqualLeaves.pairsAt (h : EqualLeaves arena f) {i : Nat} (hi : i < 255) : PairsAt arena i := by
  induction i using Nat.strong_induction_on with
  | _ i ih =>
    have hpairs : ∀ i' < i, PairsAt arena i' := fun i' hlt => ih i' hlt (by omega)
    have hmono : ∀ {k k'}, k ≤ k' → k' < 256 + i → freqAt arena k ≤ freqAt arena k' := h.freqAt_mono hpairs
    obtain ⟨g, l, r, hm⟩ := h.exists_internal (k := 256 + i) (by omega) (by omega)
    obtain ⟨hl, hr, hcl, hcr, hlr, hrest⟩ := h.least (256 + i) (by rw [h.length]; omega) g l r hm
    simp only [h.childBefore_iff hpairs, Nat.not_lt] at hcl hcr hrest
    have hlt : l < r := lt_of_nodeBefore hlr fun hle => hmono hle hl
    have hfirst : l = 2 * i := by
      by_contra hne
      have := lt_of_nodeBefore (hrest (2 * i) (by omega) (by omega) (by omega) le_rfl) fun hle => hmono hle hr
      omega
    have hsecond : r = 2 * i + 1 := by
      by_contra hne
      have := lt_of_nodeBefore (hrest (2 * i + 1) (by omega) (by omega) (by omega) (by omega)) fun hle => hmono hle hr
      omega
    subst hfirst hsecond
    refine ⟨⟨g, hm⟩, ?_⟩
    rw [h.ok.freqAt_internal hm]
    cases i with
    | zero => rw [h.freqAt_leaf (by omega), h.freqAt_leaf (by omega)]; omega
    | succ i =>
      obtain ⟨⟨g', hm'⟩, _⟩ := hpairs i (by omega)
      rw [show 255 + (i + 1) = 256 + i by omega, h.ok.freqAt_internal hm']
      exact Nat.add_le_add (hmono (by omega) hl) (hmono (by omega) hr)

/-- Counted back from the end the records are numbered as in a binary heap, so a path of L edges from the K-th leads to
the one numbered (K + 1)·2^L − 1 − val(c). -/
theorem EqualLeaves.descend_number (h : EqualLeaves arena f) {c : BitString} {k j : Nat} (hk : k < 511)
    (hc : descend arena k c = some j) : (511 - j) + bitVal c + 1 = (511 - k + 1) * 2 ^ c.length := by
  induction c generalizing k with
  | nil =>
    obtain rfl := Option.some.inj hc
    simp [bitVal]
  | cons bit c ih =>
    obtain ⟨g, l, r, hn⟩ := internal_of_descend_cons hc
    obtain ⟨i, rfl⟩ : ∃ i, k = 256 + i := ⟨k - 256, by have := h.le_of_internal hn; omega⟩
    obtain ⟨⟨g', hn'⟩, _⟩ := h.pairsAt (i := i) (by omega)
    have hchild : (if bit then 2 * i + 1 else 2 * i) = 2 * i + bit.toNat := by cases bit <;> rfl
    rw [descend_internal hn', hchild] at hc
    have hbit := bit.toNat_le
    have hnum : 511 - (256 + i) + 1 = 256 - i := by omega
    have hnum' : 511 - (2 * i + bit.toNat) + 1 + bit.toNat = 2 * (256 - i) := by omega
    calc 511 - j + bitVal (bit :: c) + 1
        = (511 - j + bitVal c + 1) + bit.toNat * 2 ^ c.length := by rw [bitVal_cons]; omega
      _ = (511 - (2 * i + bit.toNat) + 1 + bit.toNat) * 2 ^ c.length := by rw [ih (by omega) hc, ← Nat.add_mul]
      _ = (511 - (256 + i) + 1) * 2 ^ (bit :: c).length := by
        rw [hnum', hnum, List.length_cons, Nat.pow_succ']
        ring

/-- The path to leaf k has 8 edges and is the binary numeral of k. -/
theorem EqualLeaves.numeral_of_descend (h : EqualLeaves arena f) {c : BitString} {k : Nat} (hk : k < 256)
    (hc : descend arena (arena.length - 1) c = some k) : c.length = 8 ∧ bitVal c = k := by
  have hnum := h.descend_number (by rw [h.length]; omega) hc
  have hval := bitVal_lt c
  rw [h.length, show 511 - (511 - 1) + 1 = 2 from rfl, ← Nat.pow_succ'] at hnum
  have hlow : 2 ^ 8 < 2 ^ (c.length + 1) := by omega
  have hhigh : 2 ^ c.length < 2 ^ 9 := by
    rw [Nat.pow_succ] at hnum
    omega
  have hlen : c.length = 8 := by
    have h₁ := (Nat.pow_lt_pow_iff_right (by decide)).1 hlow
    have h₂ := (Nat.pow_lt_pow_iff_right (by decide)).1 hhigh
    omega
  rw [hlen] at hnum
  exact ⟨hlen, by omega⟩

end

/-- A table in which every symbol is a key with the same count. -/
theorem State.equalLeaves_buildArena {s : State} {f : Word} (h : ∀ b, s.isKey b = true ∧ s.freqOf b = f) :
    EqualLeaves (buildArena s.leafNodes) (f.setWidth 72) where
  ok := s.arenaOk_buildArena
  count := by
    have hkeys : s.keys = allSymbols := List.filter_eq_self.2 fun b _ => (h b).1
    rw [s.leafCount_buildArena, ← State.keys_length, hkeys]
    simp [allSymbols]
  least m hm := s.buildArena_mergesLeast hm
  leaf b := by
    have hsmaller : (List.range b.toNat).filter s.present.getLsbD = List.range b.toNat :=
      List.filter_eq_self.2 fun k hk => by
        have hlt := (List.mem_range.1 hk).trans b.isLt
        simpa [State.isKey, Nat.mod_eq_of_lt hlt] using (h (BitVec.ofNat 8 k)).1
    have hleaf := State.buildArena_leaf_of_isKey (h b).1
    rwa [hsmaller, List.length_range, (h b).2] at hleaf

/-- Settles O39: pairs merge in ascending order, so the records are numbered as in a binary heap. -/
theorem equalCountsGiveTheBinaryNumerals : Obligations.EqualCountsGiveTheBinaryNumerals := by
  refine fun s f h => ⟨(treeBuildBody s).complete, rfl, fun b => ?_⟩
  have heq := State.equalLeaves_buildArena h
  have hleaf := heq.leaf b
  obtain ⟨c, hc⟩ := heq.ok.exists_descend (List.getElem?_eq_some_iff.1 hleaf).1
  obtain ⟨hlen, hval⟩ := heq.numeral_of_descend b.isLt hc
  have hmem := (heq.ok.mem_codes_iff_descend (heq.count.symm ▸ by decide)).2 ⟨b.toNat, _, hc, hleaf⟩
  exact ⟨c, s.lookup_codes_treeBuild.2 hmem, hlen, hval⟩

end Sys2Proof.Machine
end

section
/-! PROOFS. The lookup commands (41_tree.md R132, R134 to R136). -/

namespace Sys2Proof.Machine

open Sys2Proof.Claims

/-- The abort of ERR_NOTREE, in the statements' words. -/
theorem requireTree_missing_finish {s : State} (h : s.treeBuilt = false) (body : State → Body) :
    (requireTree body s).finish = .next (failed 5 s) := by
  rw [requireTree_missing h]
  rfl

/-! ## The code map of a built tree -/

section
variable {s : State}

theorem State.codes_eq (h : TreeOk s) : s.codes = Machine.codes s.arena (rootOf s.arena) := by
  obtain ⟨_, hroot, _⟩ := h
  rw [State.codes, hroot]

/-- No code of a tree is empty or longer than CODE_MAX (R128, R131). -/
theorem State.code_length (h : TreeOk s) {b : Symbol} {c : BitString} (hc : s.codes.lookup b = some c) :
    1 ≤ c.length ∧ c.length ≤ 255 := by
  obtain ⟨_, _, _, harena⟩ := id h
  rw [State.codes_eq h, harena.lookup_codes] at hc
  have hlength := harena.code_length hc
  have hcount := harena.leafCount_le
  omega

/-- After EnsureC2S the code→symbol table is the inverse of the code map (R132, R134). -/
theorem State.ensureC2s_symbolFor (ht : TreeOk s) (hc : CodeTablesOk s) {c : BitString} {b : Symbol} :
    s.ensureC2s.symbolFor c = some b ↔ s.codes.lookup b = some c := by
  obtain ⟨_, _, _, harena⟩ := id ht
  rw [State.symbolFor, State.ensureC2s_table hc, State.codes_eq ht]
  exact harena.lookup_c2sTable

theorem State.ensureS2c_eq (s : State) : s.ensureS2c = { s with s2c := s.ensureS2c.s2c, s2cValid := true } := by
  unfold State.ensureS2c
  split
  next h => rw [← h]
  next => rfl

theorem State.ensureC2s_eq (s : State) : s.ensureC2s = { s with c2s := s.ensureC2s.c2s, c2sValid := true } := by
  unfold State.ensureC2s
  split
  next h => rw [← h]
  next => rfl

end

/-! ## LOOKUP_S2C (R135) -/

theorem lookupS2cBody_hit {sym : Symbol} {s : State} {c : BitString} (h : s.ensureS2c.codeOf sym = some c) :
    lookupS2cBody sym s = { s.ensureS2c with
      lkSym := sym, lkHit := true, lkLen := BitVec.ofNat 9 c.length, codev := BitVec.ofNat 256 (bitVal c) } := by
  simp only [lookupS2cBody, h]

theorem lookupS2cBody_miss {sym : Symbol} {s : State} (h : s.ensureS2c.codeOf sym = none) :
    lookupS2cBody sym s = { s.ensureS2c with lkSym := sym, lkHit := false, lkLen := 0, codev := 0 } := by
  simp only [lookupS2cBody, h]

/-- `lookupS2cBody_eq` with the fill of the table written out. -/
theorem lookupS2cBody_frame_eq (sym : Symbol) (s : State) :
    lookupS2cBody sym s = { s with
      s2c := (lookupS2cBody sym s).s2c
      s2cValid := true
      lkSym := sym
      lkHit := (lookupS2cBody sym s).lkHit
      lkLen := (lookupS2cBody sym s).lkLen
      codev := (lookupS2cBody sym s).codev } := by
  obtain ⟨hit, len, v, heq⟩ := lookupS2cBody_eq sym s
  rw [heq, State.ensureS2c_eq]

theorem lookupS2cBody_codeOf (sym : Symbol) {s : State} (h : CodeTablesOk s) (b : Symbol) :
    (lookupS2cBody sym s).codeOf b = s.codes.lookup b := by
  obtain ⟨hit, len, v, heq⟩ := lookupS2cBody_eq sym s
  rw [heq]
  exact State.ensureS2c_codeOf h b

/-- Settles O40: the filled table is the tree's, and a code's length and value fit LEN and CODEV. -/
theorem lookupS2cReadsTheCode : Obligations.LookupS2cReadsTheCode := by
  intro s sym hinv _
  obtain ⟨_, _, htree, htables⟩ := hinv
  refine ⟨fun hno => requireTree_missing_finish hno _, fun hb => ?_⟩
  refine ⟨(lookupS2cBody (symbolOperand sym) s).complete, ?_, congrArg State.complete (lookupS2cBody_frame_eq _ s),
    lookupS2cBody_codeOf _ htables, fun c hc => ?_, fun hc => ?_⟩
  · rw [exec, execLookupS2c, requireTree_built hb, Body.finish_done]
  · have hcode : s.ensureS2c.codeOf (symbolOperand sym) = some c := (State.ensureS2c_codeOf htables _).trans hc
    obtain ⟨_, hlen⟩ := State.code_length htree hc
    have hval : bitVal c < 2 ^ 256 := (bitVal_lt c).trans (Nat.pow_lt_pow_right (by decide) (by omega))
    rw [lookupS2cBody_hit hcode]
    refine ⟨rfl, ?_, ?_⟩
    · exact Nat.mod_eq_of_lt (by omega)
    · exact Nat.mod_eq_of_lt hval
  · have hcode : s.ensureS2c.codeOf (symbolOperand sym) = none := (State.ensureS2c_codeOf htables _).trans hc
    rw [lookupS2cBody_miss hcode]
    exact ⟨rfl, rfl, rfl⟩

/-! ## LOOKUP_C2S (R136) -/

theorem lookupC2sBody_hit {s : State} {b : Symbol} (h : s.ensureC2s.symbolFor s.codeOperand = some b) :
    lookupC2sBody s = { s.ensureC2s with lkHit := true, lkSym := b } := by
  have hop : s.ensureC2s.codeOperand = s.codeOperand := by simp [State.codeOperand]
  simp only [lookupC2sBody, hop, h]

theorem lookupC2sBody_miss {s : State} (h : s.ensureC2s.symbolFor s.codeOperand = none) :
    lookupC2sBody s = { s.ensureC2s with lkHit := false, lkSym := 0 } := by
  have hop : s.ensureC2s.codeOperand = s.codeOperand := by simp [State.codeOperand]
  simp only [lookupC2sBody, hop, h]

/-- `lookupC2sBody_eq` with the fill of the table written out. -/
theorem lookupC2sBody_frame_eq (s : State) :
    lookupC2sBody s = { s with
      c2s := (lookupC2sBody s).c2s
      c2sValid := true
      lkHit := (lookupC2sBody s).lkHit
      lkSym := (lookupC2sBody s).lkSym } := by
  obtain ⟨hit, sym, heq⟩ := lookupC2sBody_eq s
  rw [heq, State.ensureC2s_eq]

theorem lookupC2sBody_symbolFor {s : State} (ht : TreeOk s) (hc : CodeTablesOk s) (c : BitString) (b : Symbol) :
    (lookupC2sBody s).symbolFor c = some b ↔ s.codes.lookup b = some c := by
  obtain ⟨hit, sym, heq⟩ := lookupC2sBody_eq s
  rw [heq]
  exact State.ensureC2s_symbolFor ht hc

/-- The code operand is the one bit string of length LEN with value CODEV mod 2^LEN. -/
theorem State.eq_codeOperand_iff {s : State} {c : BitString} :
    c = s.codeOperand ↔ c.length = s.lkLen.toNat ∧ bitVal c = s.codev.toNat % 2 ^ s.lkLen.toNat := by
  have hlen : s.codeOperand.length = s.lkLen.toNat := bitsOf_length _ _
  have hval : bitVal s.codeOperand = s.codev.toNat % 2 ^ s.lkLen.toNat := bitVal_bitsOf _ _
  refine ⟨?_, fun ⟨hl, hv⟩ => bitVal_inj (hl.trans hlen.symm) (hv.trans hval.symm)⟩
  rintro rfl
  exact ⟨hlen, hval⟩

/-- Settles O41: the filled table is the inverse of the code map, looked up at the code operand. -/
theorem lookupC2sReadsTheSymbol : Obligations.LookupC2sReadsTheSymbol := by
  intro s hinv
  obtain ⟨_, _, htree, htables⟩ := hinv
  have hfor {c b} := State.ensureC2s_symbolFor (c := c) (b := b) htree htables
  have hmiss (h : ∀ b, s.codes.lookup b ≠ some s.codeOperand) :
      lookupC2sBody s = { s.ensureC2s with lkHit := false, lkSym := 0 } :=
    lookupC2sBody_miss (Option.eq_none_iff_forall_ne_some.2 fun b hb => h b (hfor.1 hb))
  refine ⟨fun hno => requireTree_missing_finish hno _, fun hb => ?_⟩
  refine ⟨(lookupC2sBody s).complete, ?_, congrArg State.complete (lookupC2sBody_frame_eq s),
    lookupC2sBody_symbolFor htree htables, fun b c hc hlen hval => ?_, fun hnone => ?_, fun hlen => ?_⟩
  · rw [exec, execLookupC2s, requireTree_built hb, Body.finish_done]
  · obtain rfl := State.eq_codeOperand_iff.2 ⟨hlen, hval⟩
    rw [lookupC2sBody_hit (hfor.2 hc)]
    exact ⟨rfl, rfl⟩
  · rw [hmiss fun b hc => hnone ⟨b, _, hc, State.eq_codeOperand_iff.1 rfl⟩]
    exact ⟨rfl, rfl⟩
  · have hout : ¬ (1 ≤ s.lkLen.toNat ∧ s.lkLen.toNat ≤ 255) := by
      rintro ⟨hlow, hhigh⟩
      rcases hlen with hzero | hlong
      · simp [hzero] at hlow
      · exact absurd hlong (Nat.not_lt.2 hhigh)
    rw [hmiss fun b hc => hout ((State.eq_codeOperand_iff (s := s)).1 rfl |>.1 ▸ State.code_length htree hc)]
    rfl

end Sys2Proof.Machine
end

section
/-! PROOFS. The bit packer (42_pack.md R150 to R154): the packer holds the bits it was fed, in stream order, and PACK
feeds it the codes of the unread bytes. -/

namespace Sys2Proof.Machine

open Sys2Proof.Claims

/-! ## Bit strings and stream bits (20_memory.md R79) -/

/-- A number whose bits from k on are those of `v` is written as `v`, then its own k low bits. -/
theorem bitsOf_add {n k v x : Nat} (h : ∀ i < n, x.testBit (i + k) = v.testBit i) :
    bitsOf (n + k) x = bitsOf n v ++ bitsOf k x := by
  induction n with
  | zero => simp [bitsOf]
  | succ n ih =>
    rw [Nat.add_right_comm, bitsOf, bitsOf, h n (Nat.lt_succ_self n),
      ih fun i hi => h i (Nat.lt_succ_of_lt hi), List.cons_append]

theorem bitsOf_eq_replicate {n v : Nat} (h : ∀ i < n, v.testBit i = false) :
    bitsOf n v = List.replicate n false := by
  induction n with
  | zero => rfl
  | succ n ih =>
    rw [bitsOf, h n (Nat.lt_succ_self n), ih fun i hi => h i (Nat.lt_succ_of_lt hi), List.replicate_succ]

theorem streamBits_append (xs ys : List Byte) : streamBits (xs ++ ys) = streamBits xs ++ streamBits ys :=
  List.flatMap_append

theorem streamBits_singleton (b : Byte) : streamBits [b] = bitsOf 8 b.toNat := rfl

theorem streamBits_length (bytes : List Byte) : (streamBits bytes).length = 8 * bytes.length := by
  simp [streamBits, Nat.mul_comm]

/-! ## The packer (R150, R151) -/

/-- The bits a packer holds, oldest first: those of its whole bytes, then the partial byte's. -/
def Packer.bits (p : Packer) : BitString := streamBits p.bytes ++ bitsOf p.nacc p.acc.toNat

/-- Shifting a bit into the partial byte puts it after the bits already there. -/
theorem bitsOf_shiftIn (acc : Byte) {n : Nat} (hn : n < 8) (bit : Bool) :
    bitsOf (n + 1) (acc <<< 1 ||| if bit then 1 else 0).toNat = bitsOf n acc.toNat ++ [bit] := by
  have hhigh : ∀ i < n, (acc <<< 1 ||| if bit then 1 else 0).toNat.testBit (i + 1) = acc.toNat.testBit i := by
    intro i hi
    have hlt : i + 1 < 8 := by omega
    rw [BitVec.testBit_toNat, BitVec.testBit_toNat, BitVec.getLsbD_or, BitVec.getLsbD_shiftLeft]
    cases bit <;> simp [hlt]
  have hlow : (acc <<< 1 ||| if bit then 1 else 0).toNat.testBit 0 = bit := by
    rw [BitVec.testBit_toNat]
    cases bit <;> simp
  rw [bitsOf_add hhigh, bitsOf, hlow, bitsOf]

theorem packBit_nacc_lt {p : Packer} (h : p.nacc < 8) (bit : Bool) : (packBit p bit).nacc < 8 := by
  simp only [packBit]
  split
  · exact Nat.zero_lt_succ 7
  · simp only
    omega

theorem packBit_bits {p : Packer} (h : p.nacc < 8) (bit : Bool) : (packBit p bit).bits = p.bits ++ [bit] := by
  have hshift := bitsOf_shiftIn p.acc h bit
  simp only [packBit]
  split
  next hfull =>
    rw [hfull] at hshift
    simp only [Packer.bits, streamBits_append, streamBits_singleton, hshift, List.append_assoc]
    rw [bitsOf, List.append_nil]
  next => simp only [Packer.bits, hshift, List.append_assoc]

theorem foldl_packBit {p : Packer} (h : p.nacc < 8) (bits : BitString) :
    (bits.foldl packBit p).nacc < 8 ∧ (bits.foldl packBit p).bits = p.bits ++ bits := by
  induction bits generalizing p with
  | nil => exact ⟨h, (List.append_nil _).symm⟩
  | cons bit bits ih =>
    obtain ⟨hlt, hbits⟩ := ih (packBit_nacc_lt h bit)
    refine ⟨hlt, hbits.trans ?_⟩
    rw [packBit_bits h, List.append_assoc, List.singleton_append]

/-- An empty packer fed with a bit string. -/
def packed (bits : BitString) : Packer := bits.foldl packBit Packer.start

theorem packed_nacc_lt (bits : BitString) : (packed bits).nacc < 8 := (foldl_packBit (by decide) bits).1

theorem packed_bits (bits : BitString) : (packed bits).bits = bits := (foldl_packBit (by decide) bits).2

theorem packed_length (bits : BitString) : 8 * (packed bits).bytes.length + (packed bits).nacc = bits.length := by
  have hlen := congrArg List.length (packed_bits bits)
  rwa [Packer.bits, List.length_append, streamBits_length, bitsOf_length] at hlen

/-- The whole bytes are as many as the bits fill (R153). -/
theorem packed_bytes_length (bits : BitString) : (packed bits).bytes.length = bits.length / 8 := by
  have hlen := packed_length bits
  have hlt := packed_nacc_lt bits
  omega

/-- The whole bytes hold the bits from the first on. -/
theorem packed_streamBits (bits : BitString) :
    streamBits (packed bits).bytes = bits.take (8 * (packed bits).bytes.length) := by
  have htake := List.take_left' (l₂ := bitsOf (packed bits).nacc (packed bits).acc.toNat)
    (streamBits_length (packed bits).bytes)
  rw [← htake]
  exact congrArg (List.take _) (packed_bits bits)

/-! ## The zero-padded partial byte (R152) -/

/-- Zero-padding a partial byte on the right keeps its bits and adds zeros up to a whole byte. -/
theorem streamBits_padded (acc : Byte) {n : Nat} (hn : n ≤ 8) :
    streamBits [acc <<< (8 - n)] = bitsOf n acc.toNat ++ List.replicate (8 - n) false := by
  have hhigh : ∀ i < n, (acc <<< (8 - n)).toNat.testBit (i + (8 - n)) = acc.toNat.testBit i := by
    intro i hi
    have hlt : i + (8 - n) < 8 := by omega
    rw [BitVec.testBit_toNat, BitVec.testBit_toNat, BitVec.getLsbD_shiftLeft]
    simp [hlt]
  have hlow : ∀ i < 8 - n, (acc <<< (8 - n)).toNat.testBit i = false := by
    intro i hi
    rw [BitVec.testBit_toNat]
    simp [hi]
  have hsplit := bitsOf_add hhigh
  rwa [Nat.add_sub_cancel' hn, bitsOf_eq_replicate hlow] at hsplit

theorem packFlush_packedAs (bits : BitString) : PackedAs (packFlush (packed bits)) bits := by
  have hlen := packed_length bits
  have hlt := packed_nacc_lt bits
  have hbits : streamBits (packed bits).bytes ++ bitsOf (packed bits).nacc (packed bits).acc.toNat = bits :=
    packed_bits bits
  unfold PackedAs packFlush
  split
  next hpartial =>
    rw [List.length_append, List.length_singleton, streamBits_append, streamBits_padded _ hlt.le,
      ← List.append_assoc, hbits]
    refine ⟨by omega, ?_⟩
    congr 2
    omega
  next hwhole =>
    have hzero : (packed bits).nacc = 0 := by omega
    rw [hzero, bitsOf, List.append_nil] at hbits
    rw [hbits, show 8 * (packed bits).bytes.length - bits.length = 0 by omega]
    exact ⟨by omega, (List.append_nil bits).symm⟩

/-! ## The loop of PACK -/

/-- Bytes with codes feed those codes to the packer. -/
theorem packLoop_append {codeOf : Symbol → Option BitString} {coded : List Byte} {cs : List BitString}
    (h : coded.map codeOf = cs.map some) (rest : List Byte) (p : Packer) (count : Nat) :
    packLoop codeOf (coded ++ rest) p count =
      packLoop codeOf rest (cs.flatten.foldl packBit p) (count + coded.length) := by
  induction coded generalizing cs p count with
  | nil =>
    obtain rfl : cs = [] := by simpa using h
    rfl
  | cons b coded ih =>
    cases cs with
    | nil => simp at h
    | cons c cs =>
      obtain ⟨hb, hrest⟩ : codeOf b = some c ∧ coded.map codeOf = cs.map some := by simpa using h
      rw [List.cons_append, packLoop, hb]
      simp only
      rw [ih hrest, List.flatten_cons, List.foldl_append, List.length_cons, Nat.add_right_comm, Nat.add_assoc]

/-- No code is longer than CODE_MAX, so the codes of n symbols hold at most 255·n bits (R128). -/
theorem codesAre_flatten_length_le {s : State} {syms : List Symbol} {cs : List BitString} (ht : TreeOk s)
    (h : CodesAre s syms cs) : cs.flatten.length ≤ 255 * syms.length := by
  have hcount : syms.length = cs.length := by simpa using congrArg List.length h
  have hcode : ∀ c ∈ cs, c.length ≤ 255 := by
    intro c hc
    have hmem : some c ∈ syms.map fun b => s.codes.lookup b := by
      rw [h]
      exact List.mem_map_of_mem hc
    obtain ⟨b, _, hb⟩ := List.mem_map.1 hmem
    exact (State.code_length ht hb).2
  have hsum := List.sum_le_card_nsmul (cs.map List.length) 255 (by simpa using hcode)
  rw [List.length_flatten, hcount]
  simpa [Nat.mul_comm] using hsum

/-! ## PACK -/

/-- The state PACK writes: `read` bytes read, `coded` of them packed, `bytes` written. -/
def State.afterPack (s : State) (read coded : Nat) (bytes : List Byte) : State :=
  { (s.ensureS2c.consume read).outWrite bytes with
    rptOrig := BitVec.ofNat 64 coded
    rptPacked := BitVec.ofNat 64 bytes.length }

theorem State.afterPack_frame_eq (s : State) (read coded : Nat) (bytes : List Byte) :
    s.afterPack read coded bytes = { s with
      s2c := (s.afterPack read coded bytes).s2c
      s2cValid := true
      out := s.out ++ bytes
      rptOrig := (s.afterPack read coded bytes).rptOrig
      rptPacked := (s.afterPack read coded bytes).rptPacked
      inPtr := (s.afterPack read coded bytes).inPtr } := by
  rw [State.afterPack, State.ensureS2c_eq]
  rfl

theorem State.afterPack_codeOf {s : State} (h : CodeTablesOk s) (read coded : Nat) (bytes : List Byte) (b : Symbol) :
    (s.afterPack read coded bytes).codeOf b = s.codes.lookup b := by
  have htable : (s.afterPack read coded bytes).s2c = s.ensureS2c.s2c := by simp [State.afterPack]
  rw [← State.ensureS2c_codeOf h b, State.codeOf, State.codeOf, htable]

theorem State.afterPack_inPtr_toNat {s : State} (h : StreamsOk s) {read : Nat} (hread : read ≤ s.unread.length)
    (coded : Nat) (bytes : List Byte) : (s.afterPack read coded bytes).inPtr.toNat = s.inPtr.toNat + read := by
  rw [← State.consume_inPtr_toNat h hread]
  simp [State.afterPack]

/-- The reports of PACK do not wrap: within MAX_STREAM both counts are below 2^64 (R154). -/
theorem State.afterPack_reports {s : State} (h : StreamsOk s) {coded : Nat} (hcoded : coded ≤ s.unread.length)
    (read : Nat) {bytes : List Byte} (hbytes : bytes.length ≤ 255 * coded) :
    (s.afterPack read coded bytes).rptOrig.toNat = coded ∧
      (s.afterPack read coded bytes).rptPacked.toNat = bytes.length := by
  obtain ⟨_, hmax, _⟩ := h
  have hmax : s.inData.length ≤ 2 ^ 56 - 1 := hmax
  rw [State.unread_length] at hcoded
  exact ⟨Nat.mod_eq_of_lt (by omega), Nat.mod_eq_of_lt (by omega)⟩

theorem codesAre_map_codeOf {s : State} (h : CodeTablesOk s) {syms : List Symbol} {cs : List BitString}
    (hcs : CodesAre s syms cs) : syms.map s.ensureS2c.codeOf = cs.map some :=
  (List.map_congr_left fun b _ => State.ensureS2c_codeOf h b).trans hcs

theorem State.complete_codeOf (s : State) (b : Symbol) : s.complete.codeOf b = s.codeOf b := rfl

theorem State.unread_ensureS2c (s : State) : s.ensureS2c.unread = s.unread := by simp [State.unread]

theorem packBody_of_codesAre {s : State} (h : CodeTablesOk s) {cs : List BitString} (hcs : CodesAre s s.unread cs) :
    packBody s = .done (s.afterPack s.unread.length s.unread.length (packFlush (packed cs.flatten))) := by
  have hloop : packLoop s.ensureS2c.codeOf s.ensureS2c.unread Packer.start 0 =
      (packed cs.flatten, s.unread.length, true) := by
    rw [State.unread_ensureS2c, ← List.append_nil s.unread, packLoop_append (codesAre_map_codeOf h hcs), packLoop,
      List.append_nil, Nat.zero_add, packed]
  simp only [packBody, hloop, State.afterPack]

theorem packBody_of_noCode {s : State} (h : CodeTablesOk s) {coded rest : List Byte} {b : Byte}
    {cs : List BitString} (hunread : s.unread = coded ++ b :: rest) (hcs : CodesAre s coded cs)
    (hb : s.codes.lookup b = none) :
    packBody s = .raised .noCode (s.afterPack (coded.length + 1) coded.length (packed cs.flatten).bytes) := by
  have hcode : s.ensureS2c.codeOf b = none := (State.ensureS2c_codeOf h b).trans hb
  have hloop : packLoop s.ensureS2c.codeOf s.ensureS2c.unread Packer.start 0 =
      (packed cs.flatten, coded.length, false) := by
    rw [State.unread_ensureS2c, hunread, packLoop_append (codesAre_map_codeOf h hcs), packLoop, hcode, Nat.zero_add,
      packed]
  simp only [packBody, hloop, State.afterPack]

theorem exec_pack {s : State} (hb : s.treeBuilt = true) (hin : s.inAvail = true) :
    exec .pack s = (packBody s).finish := by
  rw [exec, execPack, requireTree_built hb, requireInput_attached hin]

/-- Settles O42: the packer is fed the concatenated codes, and its flush is their packed form. -/
theorem packAppendsTheConcatenatedCodes : Obligations.PackAppendsTheConcatenatedCodes := by
  intro s cs hinv hb hin hcs
  obtain ⟨hstreams, _, htree, htables⟩ := hinv
  have hpacked := packFlush_packedAs cs.flatten
  have hbits := codesAre_flatten_length_le htree hcs
  obtain ⟨horig, hrpt⟩ := State.afterPack_reports hstreams le_rfl s.unread.length
    (bytes := packFlush (packed cs.flatten)) (by rw [hpacked.1]; omega)
  refine ⟨(s.afterPack s.unread.length s.unread.length (packFlush (packed cs.flatten))).complete,
    packFlush (packed cs.flatten), ?_, hpacked, ?_, fun b => ?_, ?_, ?_, ?_⟩
  · rw [exec_pack hb hin, packBody_of_codesAre htables hcs, Body.finish_done]
  · exact congrArg State.complete (s.afterPack_frame_eq _ _ _)
  · rw [State.complete_codeOf, State.afterPack_codeOf htables]
  · rw [State.complete_rptOrig, horig]
  · rw [State.complete_rptPacked, hrpt, hpacked.1]
  · rw [State.complete_inPtr, State.afterPack_inPtr_toNat hstreams le_rfl, State.unread_length]
    exact Nat.add_sub_cancel' hstreams.1

/-- Settles O43: the loop ends at the byte without a code with the packer fed the codes before it, whose whole bytes are
written and whose partial byte is not. -/
theorem packStopsAtAByteWithoutACode : Obligations.PackStopsAtAByteWithoutACode := by
  intro s coded cs b rest hinv hb hin hunread hcs hnone
  obtain ⟨hstreams, _, htree, htables⟩ := hinv
  have hwhole := packed_bytes_length cs.flatten
  have hbits := codesAre_flatten_length_le htree hcs
  have hread : coded.length + 1 ≤ s.unread.length := by
    rw [hunread, List.length_append, List.length_cons]
    omega
  obtain ⟨horig, hrpt⟩ := State.afterPack_reports hstreams (Nat.le_of_succ_le hread) (coded.length + 1)
    (bytes := (packed cs.flatten).bytes) (by omega)
  refine ⟨(s.afterPack (coded.length + 1) coded.length (packed cs.flatten).bytes).raise .noCode,
    (packed cs.flatten).bytes, ?_, hwhole, packed_streamBits _, ?_, ?_, ?_, ?_⟩
  · rw [exec_pack hb hin, packBody_of_noCode htables hunread hcs hnone, Body.finish_raised]
  · exact congrArg (State.raise · .noCode) (s.afterPack_frame_eq _ _ _)
  · rw [State.raise_rptOrig, horig]
  · rw [State.raise_rptPacked, hrpt]
  · rw [State.raise_inPtr, State.afterPack_inPtr_toNat hstreams hread, Nat.add_assoc]

end Sys2Proof.Machine
end

section
/-! PROOFS. GETBIT and the bit unpacker (43_unpack.md R160 to R168): the unpacker is fed the unread bits in stream
order, each code among them emits its symbol, and UNPACK reads no further than the byte of the last one. -/

namespace Sys2Proof.Machine

open Sys2Proof.Claims

/-! ## GETBIT (R160, R161) -/

theorem getBit_eq_some {b : Byte} {i : Nat} (h₁ : 1 ≤ i) (h₈ : i ≤ 8) :
    getBit b i = some (BitVec.ofNat 1 ((b.toNat >>> (8 - i)) &&& 1)) := if_pos ⟨h₁, h₈⟩

theorem getBit_eq_none {b : Byte} {i : Nat} (h : ¬ (1 ≤ i ∧ i ≤ 8)) : getBit b i = none := if_neg h

/-- A one-bit register holds a bit taken out by a mask as it is. -/
theorem toNat_ofNat_and_one (x : Nat) : (BitVec.ofNat 1 (x &&& 1)).toNat = x &&& 1 := by
  rw [BitVec.toNat_ofNat, Nat.and_one_is_mod, pow_one, Nat.mod_mod]

theorem exec_getbit (b : Byte) (i : Nat) (s : State) : exec (.getbit b.toNat i) s = (getbitBody b i s).finish := by
  rw [exec, execGetbit, symbolOperand, BitVec.ofNat_toNat, BitVec.setWidth_eq]

/-- Settles O44: the index check of GetBit, and the bit in GB_RESULT and in its register. -/
theorem getbitExtractsOneBit : Obligations.GetbitExtractsOneBit := by
  refine fun s b i => ⟨fun h₁ h₈ => ?_, fun hi => ?_⟩
  · have hbit := toNat_ofNat_and_one (b.toNat >>> (8 - i))
    refine ⟨State.complete { s with gbResult := BitVec.ofNat 1 ((b.toNat >>> (8 - i)) &&& 1) }, ?_, rfl, hbit,
      (BitVec.toNat_setWidth_of_le (by decide)).trans hbit⟩
    rw [exec_getbit, getbitBody, getBit_eq_some h₁ h₈]
    rfl
  · rw [exec_getbit, getbitBody, getBit_eq_none (by omega)]
    rfl

/-! ## Stream order (R163, 20_memory.md R79) -/

theorem getBit_eq_getLsbD {b : Byte} {i : Nat} (h₁ : 1 ≤ i) (h₈ : i ≤ 8) :
    (getBit b i == some 1) = b.getLsbD (8 - i) := by
  rw [getBit_eq_some h₁ h₈, ← BitVec.testBit_toNat, Bool.eq_iff_iff, beq_iff_eq, Option.some.injEq,
    ← BitVec.toNat_inj, toNat_ofNat_and_one, Nat.and_one_is_mod, Nat.testBit_eq_decide_div_mod_eq,
    decide_eq_true_iff, Nat.shiftRight_eq_div_pow]
  rfl

theorem bitsMsbFirst_length (b : Byte) : (bitsMsbFirst b).length = 8 := by simp [bitsMsbFirst]

/-- UNPACK tries the bits of a byte in stream order. -/
theorem bitsMsbFirst_eq_streamBits (b : Byte) : bitsMsbFirst b = streamBits [b] := by
  refine List.ext_getElem (by rw [bitsMsbFirst_length, streamBits_length]; rfl) fun k hk _ => ?_
  rw [bitsMsbFirst_length] at hk
  simp only [bitsMsbFirst, streamBits, List.flatMap_singleton, List.getElem_map, List.getElem_range',
    List.getElem_range]
  rw [getBit_eq_getLsbD (by omega) (by omega)]
  congr 1
  omega

theorem streamBits_cons (b : Byte) (bs : List Byte) : streamBits (b :: bs) = bitsMsbFirst b ++ streamBits bs := by
  rw [bitsMsbFirst_eq_streamBits, ← streamBits_append]
  rfl

/-! ## The unpacker, bit by bit (R163, R164) -/

section
variable {symbolFor : BitString → Option Symbol} {n : Nat}

theorem unpackBit_stopped {u : Unpacker} (h : u.stopped = true) (bit : Bool) : unpackBit symbolFor n u bit = u :=
  if_pos h

theorem unpackBit_none {acc : BitString} {bit : Bool} (h : symbolFor (acc ++ [bit]) = none) (emitted : List Symbol) :
    unpackBit symbolFor n ⟨acc, emitted, false⟩ bit = ⟨acc ++ [bit], emitted, false⟩ := by
  simp [unpackBit, h]

/-- An unpacker between two codes, with the symbols given emitted. -/
def Unpacker.between (n : Nat) (emitted : List Symbol) : Unpacker := ⟨[], emitted, decide (emitted.length = n)⟩

theorem unpackBit_some {acc : BitString} {bit : Bool} {b : Symbol} (h : symbolFor (acc ++ [bit]) = some b)
    (emitted : List Symbol) :
    unpackBit symbolFor n ⟨acc, emitted, false⟩ bit = .between n (emitted ++ [b]) := by
  simp [unpackBit, h, Unpacker.between]

theorem foldl_unpackBit_stopped {u : Unpacker} (h : u.stopped = true) (bits : BitString) :
    bits.foldl (unpackBit symbolFor n) u = u := by
  induction bits with
  | nil => rfl
  | cons bit bits ih => rw [List.foldl_cons, unpackBit_stopped h, ih]

/-- An unpacker that has not stopped had not stopped before. -/
theorem stopped_of_foldl_unpackBit {u : Unpacker} {bits : BitString}
    (h : (bits.foldl (unpackBit symbolFor n) u).stopped = false) : u.stopped = false := by
  by_contra hs
  rw [foldl_unpackBit_stopped (Bool.eq_true_of_not_eq_false hs)] at h
  exact hs h

/-- As long as the bits begin with no code they gather in the accumulator. -/
theorem foldl_unpackBit_noMatch {bits : BitString} (h : ∀ c, c <+: bits → symbolFor c = none)
    (emitted : List Symbol) :
    bits.foldl (unpackBit symbolFor n) ⟨[], emitted, false⟩ = ⟨bits, emitted, false⟩ := by
  induction bits using List.reverseRecOn with
  | nil => rfl
  | append_singleton bits bit ih =>
    rw [List.foldl_concat, ih fun c hc => h c (hc.trans (List.prefix_append _ _)),
      unpackBit_none (h _ List.prefix_rfl)]

/-- A code map to decode with: no code is empty, and none begins another (41_tree.md R131, R133). -/
structure PrefixCode (symbolFor : BitString → Option Symbol) : Prop where
  nil : symbolFor [] = none
  prefixFree : ∀ {c d : BitString} {a b : Symbol}, symbolFor c = some a → symbolFor d = some b → c <+: d → c = d

/-- A code is read up to its last bit without a match. -/
theorem PrefixCode.exists_last_bit (h : PrefixCode symbolFor) {c : BitString} {b : Symbol} (hc : symbolFor c = some b) :
    ∃ p bit, c = p ++ [bit] ∧ ∀ d, d <+: p → symbolFor d = none := by
  rcases List.eq_nil_or_concat' c with rfl | ⟨p, bit, rfl⟩
  · simp [h.nil] at hc
  · refine ⟨p, bit, rfl, fun d hd => Option.eq_none_iff_forall_ne_some.2 fun a ha => ?_⟩
    obtain rfl := h.prefixFree ha hc (hd.trans (List.prefix_append _ _))
    simpa using hd.length_le

theorem Unpacker.between_of_lt {emitted : List Symbol} (h : emitted.length < n) :
    Unpacker.between n emitted = ⟨[], emitted, false⟩ := by
  rw [Unpacker.between, decide_eq_false h.ne]

theorem Unpacker.start_eq_between (h : 0 < n) : Unpacker.start = .between n [] := (between_of_lt h).symm

/-- The bits of a code emit its symbol. -/
theorem PrefixCode.foldl_code (h : PrefixCode symbolFor) {c : BitString} {b : Symbol} (hc : symbolFor c = some b)
    {emitted : List Symbol} (hlen : emitted.length < n) :
    c.foldl (unpackBit symbolFor n) (.between n emitted) = .between n (emitted ++ [b]) := by
  obtain ⟨p, bit, rfl, hp⟩ := h.exists_last_bit hc
  rw [Unpacker.between_of_lt hlen, List.foldl_concat, foldl_unpackBit_noMatch hp, unpackBit_some hc]

/-- The codes of some symbols, one after the other, emit those symbols. -/
theorem PrefixCode.foldl_codes (h : PrefixCode symbolFor) {syms : List Symbol} {cs : List BitString}
    (hcs : List.Forall₂ (fun b c => symbolFor c = some b) syms cs) {emitted : List Symbol}
    (hlen : emitted.length + syms.length ≤ n) :
    cs.flatten.foldl (unpackBit symbolFor n) (.between n emitted) = .between n (emitted ++ syms) := by
  induction hcs generalizing emitted with
  | nil => rw [List.append_nil]; rfl
  | @cons b c syms cs hc _ ih =>
    rw [List.length_cons] at hlen
    rw [List.flatten_cons, List.foldl_append, h.foldl_code hc (by omega),
      ih (by rw [List.length_append, List.length_singleton]; omega), List.append_assoc, List.singleton_append]

/-- The unpacker stops at the last bit of the n-th code and not before it (R164). -/
theorem PrefixCode.not_stopped_before_last_bit (h : PrefixCode symbolFor) {syms : List Symbol} {cs : List BitString}
    (hcs : List.Forall₂ (fun b c => symbolFor c = some b) syms cs) (hne : syms ≠ []) {emitted : List Symbol}
    (hlen : emitted.length + syms.length ≤ n) :
    ∃ pre bit, cs.flatten = pre ++ [bit] ∧
      (pre.foldl (unpackBit symbolFor n) (.between n emitted)).stopped = false := by
  induction hcs generalizing emitted with
  | nil => exact absurd rfl hne
  | @cons b c syms cs hc hcs ih =>
    rw [List.length_cons] at hlen
    cases hcs with
    | nil =>
      obtain ⟨p, bit, rfl, hp⟩ := h.exists_last_bit hc
      refine ⟨p, bit, by simp, ?_⟩
      rw [Unpacker.between_of_lt (by omega), foldl_unpackBit_noMatch hp]
    | cons =>
      obtain ⟨pre, bit, hflat, hpre⟩ := ih (List.cons_ne_nil _ _) (emitted := emitted ++ [b])
        (by rw [List.length_append, List.length_singleton]; omega)
      refine ⟨c ++ pre, bit, by rw [List.flatten_cons, hflat, List.append_assoc], ?_⟩
      rw [List.foldl_append, h.foldl_code hc (by omega), hpre]

/-! ## The unpacker, byte by byte (R162) -/

/-- Where no bit of the input is the stopping one, every byte is read (R165). -/
theorem unpackLoop_of_not_stopped {bs : List Byte} {u : Unpacker} (read : Nat)
    (h : ((streamBits bs).foldl (unpackBit symbolFor n) u).stopped = false) :
    unpackLoop symbolFor n bs u read = ((streamBits bs).foldl (unpackBit symbolFor n) u, read + bs.length) := by
  induction bs generalizing u read with
  | nil => rfl
  | cons b bs ih =>
    rw [streamBits_cons, List.foldl_append] at h ⊢
    rw [unpackLoop, if_neg (by simp [stopped_of_foldl_unpackBit h]), ih _ h, List.length_cons, Nat.add_assoc,
      Nat.add_comm 1]

/-- The loop ends with the byte of the stopping bit (R164, R167). -/
theorem unpackLoop_of_stopped {bs : List Byte} {u : Unpacker} (read : Nat) {pre : BitString} {bit : Bool}
    (hp : pre ++ [bit] <+: streamBits bs) (hpre : (pre.foldl (unpackBit symbolFor n) u).stopped = false)
    (hstop : ((pre ++ [bit]).foldl (unpackBit symbolFor n) u).stopped = true) :
    unpackLoop symbolFor n bs u read =
      ((pre ++ [bit]).foldl (unpackBit symbolFor n) u, read + (pre.length / 8 + 1)) := by
  induction bs generalizing u read pre with
  | nil => simp [streamBits] at hp
  | cons b bs ih =>
    rw [streamBits_cons] at hp
    have hbyte := bitsMsbFirst_length b
    by_cases hlast : pre.length < 8
    · obtain ⟨post, hpost⟩ : pre ++ [bit] <+: bitsMsbFirst b :=
        List.prefix_of_prefix_length_le hp (List.prefix_append _ _)
          (by rw [List.length_append, List.length_singleton]; omega)
      have hend : (bitsMsbFirst b).foldl (unpackBit symbolFor n) u =
          (pre ++ [bit]).foldl (unpackBit symbolFor n) u := by
        rw [← hpost, List.foldl_append, foldl_unpackBit_stopped hstop]
      rw [unpackLoop, hend, if_pos hstop, Nat.div_eq_of_lt hlast]
    · obtain ⟨pre, rfl⟩ : bitsMsbFirst b <+: pre :=
        List.prefix_of_prefix_length_le (List.prefix_append _ _) ((List.prefix_append _ _).trans hp) (by omega)
      rw [List.append_assoc, List.prefix_append_right_inj] at hp
      rw [List.append_assoc, List.foldl_append] at hstop ⊢
      rw [List.foldl_append] at hpre
      rw [unpackLoop, if_neg (by simp [stopped_of_foldl_unpackBit hpre]), ih _ hp hpre hstop, List.length_append, hbyte]
      congr 1
      omega

end

/-! ## UNPACK (R162 to R165) -/

/-- The state UNPACK writes: `read` bytes read and `syms` emitted. -/
def State.afterUnpack (s : State) (read : Nat) (syms : List Symbol) : State :=
  { (s.ensureC2s.consume read).outWrite syms with
    rptOrig := BitVec.ofNat 64 syms.length
    rptPacked := BitVec.ofNat 64 read }

theorem exec_unpack {s : State} (hb : s.treeBuilt = true) (hin : s.inAvail = true) :
    exec .unpack s = (unpackBody s).finish := by
  rw [exec, execUnpack, requireTree_built hb, requireInput_attached hin]

section
variable {s : State}

theorem State.unread_ensureC2s (s : State) : s.ensureC2s.unread = s.unread := by simp [State.unread]

theorem State.afterUnpack_frame_eq (s : State) (read : Nat) (syms : List Symbol) :
    s.afterUnpack read syms = { s with
      c2s := (s.afterUnpack read syms).c2s
      c2sValid := true
      out := s.out ++ syms
      rptOrig := BitVec.ofNat 64 syms.length
      rptPacked := (s.afterUnpack read syms).rptPacked
      inPtr := (s.afterUnpack read syms).inPtr } := by
  rw [State.afterUnpack, State.ensureC2s_eq]
  rfl

theorem State.afterUnpack_inPtr_toNat (h : StreamsOk s) {read : Nat} (hread : read ≤ s.unread.length)
    (syms : List Symbol) : (s.afterUnpack read syms).inPtr.toNat = s.inPtr.toNat + read := by
  rw [← State.consume_inPtr_toNat h hread]
  simp [State.afterUnpack]

/-- RPT_PACKED does not wrap within MAX_STREAM. -/
theorem State.afterUnpack_rptPacked_toNat (h : StreamsOk s) {read : Nat} (hread : read ≤ s.unread.length)
    (syms : List Symbol) : (s.afterUnpack read syms).rptPacked.toNat = read := by
  obtain ⟨_, hmax, _⟩ := h
  have hmax : s.inData.length ≤ 2 ^ 56 - 1 := hmax
  rw [State.unread_length] at hread
  exact Nat.mod_eq_of_lt (by omega)

theorem State.ensureC2s_prefixCode (ht : TreeOk s) (hc : CodeTablesOk s) : PrefixCode s.ensureC2s.symbolFor where
  nil := Option.eq_none_iff_forall_ne_some.2 fun b hb => by
    have hlen := State.code_length ht ((State.ensureC2s_symbolFor ht hc).1 hb)
    simp at hlen
  prefixFree {c d a b} ha hb hp := by
    obtain ⟨_, _, _, harena⟩ := id ht
    rw [State.ensureC2s_symbolFor ht hc, State.codes_eq ht] at ha hb
    obtain rfl := harena.codes_prefixFree (harena.lookup_codes.1 ha) (harena.lookup_codes.1 hb) hp
    exact Option.some.inj (ha.symm.trans hb)

/-- The filled table has each code's symbol. -/
theorem codesAre_forall₂ (ht : TreeOk s) (hc : CodeTablesOk s) {syms : List Symbol} {cs : List BitString}
    (hcs : CodesAre s syms cs) : List.Forall₂ (fun b c => s.ensureC2s.symbolFor c = some b) syms cs := by
  rw [CodesAre, ← List.forall₂_eq_eq_eq, List.forall₂_map_left_iff, List.forall₂_map_right_iff] at hcs
  exact hcs.imp fun _ _ h => (State.ensureC2s_symbolFor ht hc).2 h

theorem unpackBody_of_symCount_zero (h : s.symCount = 0) :
    unpackBody s = .done { s.ensureC2s with rptOrig := 0, rptPacked := 0 } := by
  simp only [unpackBody, State.ensureC2s_symCount, h, if_true]

/-- UNPACK of at least one symbol ends as its loop does: at the stop, or with ERR_CORRUPT. -/
theorem unpackBody_of_unpackLoop (h : s.symCount ≠ 0) {u : Unpacker} {read : Nat}
    (hloop : unpackLoop s.ensureC2s.symbolFor s.symCount.toNat s.unread .start 0 = (u, read)) :
    unpackBody s =
      if u.stopped then .done (s.afterUnpack read u.emitted) else .raised .corrupt (s.afterUnpack read u.emitted) := by
  simp only [unpackBody, State.ensureC2s_symCount, State.unread_ensureC2s, if_neg h, hloop, State.afterUnpack]

theorem unpackBody_of_codesAre (ht : TreeOk s) (hc : CodeTablesOk s) {syms : List Symbol} {cs : List BitString}
    (hlen : syms.length = s.symCount.toNat) (hpos : 1 ≤ syms.length) (hcs : CodesAre s syms cs)
    (hp : cs.flatten <+: streamBits s.unread) :
    unpackBody s = .done (s.afterUnpack ((cs.flatten.length + 7) / 8) syms) := by
  have hcode := State.ensureC2s_prefixCode ht hc
  have hfor := codesAre_forall₂ ht hc hcs
  have hcount : s.symCount ≠ 0 := fun h => by
    rw [hlen, h] at hpos
    exact absurd hpos (by decide)
  have hstart := Unpacker.start_eq_between (n := s.symCount.toNat) (by omega)
  have hall : cs.flatten.foldl (unpackBit s.ensureC2s.symbolFor s.symCount.toNat) .start = ⟨[], syms, true⟩ := by
    rw [hstart, hcode.foldl_codes hfor (by simp [hlen]), Unpacker.between, List.nil_append, decide_eq_true hlen]
  obtain ⟨pre, bit, hflat, hpre⟩ := hcode.not_stopped_before_last_bit hfor (List.ne_nil_of_length_pos hpos)
    (emitted := []) (n := s.symCount.toNat) (by simp [hlen])
  rw [← hstart] at hpre
  rw [hflat] at hp hall ⊢
  have hloop := unpackLoop_of_stopped 0 hp hpre (by rw [hall])
  rw [hall] at hloop
  rw [unpackBody_of_unpackLoop hcount hloop, if_pos rfl]
  congr 2
  rw [List.length_append, List.length_singleton]
  omega

theorem unpackBody_of_exhausted (ht : TreeOk s) (hc : CodeTablesOk s) {syms : List Symbol} {cs : List BitString}
    {left : BitString} (hlen : syms.length < s.symCount.toNat) (hcs : CodesAre s syms cs)
    (hbits : streamBits s.unread = cs.flatten ++ left)
    (hleft : ∀ b c, s.codes.lookup b = some c → ¬ c <+: left) :
    unpackBody s = .raised .corrupt (s.afterUnpack s.unread.length syms) := by
  have hcount : s.symCount ≠ 0 := fun h => by simp [h] at hlen
  have hstart := Unpacker.start_eq_between (n := s.symCount.toNat) (by omega)
  have hnone : ∀ c, c <+: left → s.ensureC2s.symbolFor c = none := fun c hp =>
    Option.eq_none_iff_forall_ne_some.2 fun b hb => hleft b c ((State.ensureC2s_symbolFor ht hc).1 hb) hp
  have hall : (streamBits s.unread).foldl (unpackBit s.ensureC2s.symbolFor s.symCount.toNat) .start =
      ⟨left, syms, false⟩ := by
    rw [hbits, List.foldl_append, hstart, (State.ensureC2s_prefixCode ht hc).foldl_codes (codesAre_forall₂ ht hc hcs)
      (by simp; omega), List.nil_append, Unpacker.between_of_lt hlen, foldl_unpackBit_noMatch hnone]
  have hloop := unpackLoop_of_not_stopped 0 (by rw [hall])
  rw [hall, Nat.zero_add] at hloop
  rw [unpackBody_of_unpackLoop hcount hloop, if_neg Bool.false_ne_true]

end

/-- Settles O45: no code of a tree begins another, so the unpacker emits the symbols one by one and stops at the last bit
of the last code. -/
theorem unpackDecodesTheExpectedSymbols : Obligations.UnpackDecodesTheExpectedSymbols := by
  intro s syms cs hinv hb hin hlen hpos hcs hp
  obtain ⟨hstreams, _, htree, htables⟩ := hinv
  have hread : (cs.flatten.length + 7) / 8 ≤ s.unread.length := by
    have := hp.length_le
    rw [streamBits_length] at this
    omega
  have horig : BitVec.ofNat 64 syms.length = s.symCount := by rw [hlen, BitVec.ofNat_toNat, BitVec.setWidth_eq]
  refine ⟨(s.afterUnpack ((cs.flatten.length + 7) / 8) syms).complete, ?_, ?_, fun c b => ?_, ?_, ?_⟩
  · rw [exec_unpack hb hin, unpackBody_of_codesAre htree htables hlen hpos hcs hp, Body.finish_done]
  · exact (congrArg State.complete (s.afterUnpack_frame_eq _ _)).trans (by rw [horig]; rfl)
  · exact State.ensureC2s_symbolFor htree htables
  · rw [State.complete_rptPacked, State.afterUnpack_rptPacked_toNat hstreams hread]
  · rw [State.complete_inPtr, State.afterUnpack_inPtr_toNat hstreams hread]

/-- Settles O46: after the codes nothing that is left matches, so the loop meets the end of the input unstopped. -/
theorem unpackReportsAnExhaustedPayload : Obligations.UnpackReportsAnExhaustedPayload := by
  intro s syms cs left hinv hb hin hlen hcs hbits hleft
  obtain ⟨hstreams, _, htree, htables⟩ := hinv
  refine ⟨(s.afterUnpack s.unread.length syms).raise .corrupt, ?_, ?_, ?_, ?_, ?_⟩
  · rw [exec_unpack hb hin, unpackBody_of_exhausted htree htables hlen hcs hbits hleft, Body.finish_raised]
  · exact congrArg (State.raise · .corrupt) (s.afterUnpack_frame_eq _ _)
  · exact Nat.mod_eq_of_lt (hlen.trans s.symCount.isLt)
  · rw [State.raise_rptPacked, State.afterUnpack_rptPacked_toNat hstreams le_rfl]
  · rw [State.raise_inPtr, State.afterUnpack_inPtr_toNat hstreams le_rfl, State.unread_length]
    exact Nat.add_sub_cancel' hstreams.1

/-- Settles O47: the test of the expected count before the loop. -/
theorem unpackOfNothingReadsNothing : Obligations.UnpackOfNothingReadsNothing := by
  intro s hb hin hzero
  refine ⟨State.complete { s.ensureC2s with rptOrig := 0, rptPacked := 0 }, ?_, ?_⟩
  · rw [exec_unpack hb hin, unpackBody_of_symCount_zero hzero, Body.finish_done]
  · exact congrArg (fun u : State => State.complete { u with rptOrig := 0, rptPacked := 0 }) s.ensureC2s_eq

end Sys2Proof.Machine
end

section
/-! PROOFS. The accumulator of UNPACK and a walk of the tree decode alike (43_unpack.md R166): both know the record that
the bits since the last symbol lead to. -/

namespace Sys2Proof.Machine

open Sys2Proof.Claims

/-! ## The record at the end of a path -/

/-- The record a path from the root leads to. -/
def recordAt (arena : List Node) (c : BitString) : Option Node := (rootOf arena).bind fun r => follow arena r c

/-- The index of a child; a leaf has none. -/
def Node.child? (bit : Bool) : Node → Option Nat
  | .leaf _ _ => none
  | .internal _ left right => some (if bit then right else left)

section
variable {arena : List Node}

theorem recordAt_nil (arena : List Node) : recordAt arena [] = (rootOf arena).bind (arena[·]?) := rfl

theorem recordAt_of_length_pos (h : 0 < arena.length) (c : BitString) :
    recordAt arena c = follow arena (arena.length - 1) c := by
  rw [recordAt, rootOf, if_neg h.ne', Option.bind_some]

theorem follow_singleton (k : Nat) (bit : Bool) :
    follow arena k [bit] = (arena[k]?.bind (Node.child? bit)).bind (arena[·]?) := by
  rw [follow]
  cases arena[k]? with
  | none => rfl
  | some x => cases x <;> rfl

theorem follow_concat (k : Nat) (c : BitString) (bit : Bool) :
    follow arena k (c ++ [bit]) = ((follow arena k c).bind (Node.child? bit)).bind (arena[·]?) := by
  rw [follow_eq_descend, descend_append, follow_eq_descend]
  cases descend arena k c with
  | none => rfl
  | some j => exact (follow_eq_descend j [bit]).symm.trans (follow_singleton j bit)

theorem recordAt_concat (c : BitString) (bit : Bool) :
    recordAt arena (c ++ [bit]) = ((recordAt arena c).bind (Node.child? bit)).bind (arena[·]?) := by
  unfold recordAt
  cases rootOf arena with
  | none => rfl
  | some r => exact follow_concat r c bit

/-- No path leads on from the only leaf of a tree. -/
theorem recordAt_single_cons (b : Symbol) (f : NodeFreq) (bit : Bool) (c : BitString) :
    recordAt [.leaf b f] (bit :: c) = none := rfl

/-- Where a path has not met a leaf, one more bit makes it a code exactly where that bit leads to a leaf. -/
theorem ArenaOk.mem_codes_concat_iff (h : ArenaOk arena) {c : BitString}
    (hnot : ∀ b f, recordAt arena c ≠ some (.leaf b f)) {b : Symbol} {bit : Bool} :
    (b, c ++ [bit]) ∈ codes arena (rootOf arena) ↔ ∃ f, recordAt arena (c ++ [bit]) = some (.leaf b f) := by
  have hlen := h.length_eq
  rcases h.codes_cases with ⟨h0, hcodes⟩ | ⟨_, b₀, f₀, rfl, hcodes⟩ | ⟨h2, _, _⟩
  · obtain rfl : arena = [] := List.length_eq_zero_iff.1 (by omega)
    rw [hcodes]
    exact iff_of_false List.not_mem_nil fun ⟨f, hf⟩ => by simp [recordAt, rootOf] at hf
  · cases c with
    | nil => exact absurd rfl (hnot b₀ f₀)
    | cons bit₀ c => simp [hcodes, recordAt_single_cons]
  · rw [h.mem_codes_iff h2, recordAt_of_length_pos (by omega)]

/-- A path that is no code and meets a leaf is the empty one, in the tree of that one leaf. -/
theorem ArenaOk.eq_nil_of_recordAt_leaf (h : ArenaOk arena) {c : BitString} {b : Symbol} {f : NodeFreq}
    (hcode : (b, c) ∉ codes arena (rootOf arena)) (hleaf : recordAt arena c = some (.leaf b f)) :
    c = [] ∧ arena = [.leaf b f] := by
  have hlen := h.length_eq
  rcases h.codes_cases with ⟨h0, _⟩ | ⟨_, b₀, f₀, rfl, _⟩ | ⟨h2, _, _⟩
  · obtain rfl : arena = [] := List.length_eq_zero_iff.1 (by omega)
    simp [recordAt, rootOf] at hleaf
  · cases c with
    | nil => exact ⟨rfl, congrArg (fun x => [x]) (Option.some.inj hleaf)⟩
    | cons bit c => simp [recordAt_single_cons] at hleaf
  · rw [recordAt_of_length_pos (by omega)] at hleaf
    exact absurd ((h.mem_codes_iff h2).2 ⟨f, hleaf⟩) hcode

/-! ## One bit of the walk (R166) -/

/-- Where one bit takes the walker, before it looks at the record there. -/
def walkNext (arena : List Node) (node : Option Nat) (bit : Bool) : Option Nat :=
  match node.bind (arena[·]?) with
  | some (.internal _ left right) => some (if bit then right else left)
  | some (.leaf _ _) => if bit then none else node
  | none => none

theorem walkNext_of_not_leaf {node : Option Nat} (h : ∀ b f, node.bind (arena[·]?) ≠ some (.leaf b f)) (bit : Bool) :
    walkNext arena node bit = (node.bind (arena[·]?)).bind (Node.child? bit) := by
  unfold walkNext
  cases hx : node.bind (arena[·]?) with
  | none => rfl
  | some x =>
    cases x with
    | leaf b f => exact absurd hx (h b f)
    | internal => rfl

theorem walkNext_of_leaf {node : Option Nat} {b : Symbol} {f : NodeFreq}
    (h : node.bind (arena[·]?) = some (.leaf b f)) (bit : Bool) :
    walkNext arena node bit = if bit then none else node := by
  rw [walkNext, h]

variable {root : Option Nat} {n : Nat} {w : Walker} {bit : Bool}

/-- What the walker becomes at the record where a bit takes it: at a leaf it emits and returns to the root, and where
there is no record it is dead. -/
def Walker.arrive (root : Option Nat) (n : Nat) (emitted : List Symbol) (next : Option Nat) : Option Node → Walker
  | some (.leaf sym _) => ⟨root, emitted ++ [sym], decide ((emitted ++ [sym]).length = n)⟩
  | some (.internal _ _ _) => ⟨next, emitted, false⟩
  | none => ⟨none, emitted, false⟩

theorem walkBit_stopped (h : w.stopped = true) (bit : Bool) : walkBit arena root n w bit = w := if_pos h

theorem walkBit_eq_arrive (h : w.stopped = false) (bit : Bool) :
    walkBit arena root n w bit = Walker.arrive root n w.emitted (walkNext arena w.node bit)
      ((walkNext arena w.node bit).bind (arena[·]?)) :=
  if_neg (by simp [h])

theorem walkBit_leaf (hw : w.stopped = false) {b : Symbol} {f : NodeFreq}
    (h : (walkNext arena w.node bit).bind (arena[·]?) = some (.leaf b f)) :
    walkBit arena root n w bit = ⟨root, w.emitted ++ [b], decide ((w.emitted ++ [b]).length = n)⟩ := by
  rw [walkBit_eq_arrive hw, h, Walker.arrive]

theorem walkBit_not_leaf (hw : w.stopped = false)
    (h : ∀ b f, (walkNext arena w.node bit).bind (arena[·]?) ≠ some (.leaf b f)) :
    ∃ node, walkBit arena root n w bit = ⟨node, w.emitted, false⟩ ∧
      node.bind (arena[·]?) = (walkNext arena w.node bit).bind (arena[·]?) := by
  rw [walkBit_eq_arrive hw]
  cases hx : (walkNext arena w.node bit).bind (arena[·]?) with
  | none => exact ⟨none, rfl, rfl⟩
  | some x =>
    cases x with
    | leaf b f => exact absurd hx (h b f)
    | internal => exact ⟨_, rfl, hx⟩

end

/-! ## The two decoders -/

/-- The walker stands at the record the accumulator leads to, which is no code, and both have emitted the same. -/
structure Tracks (arena : List Node) (u : Unpacker) (w : Walker) : Prop where
  emitted : w.emitted = u.emitted
  stopped : w.stopped = u.stopped
  record : w.node.bind (arena[·]?) = recordAt arena u.acc
  unmatched : ∀ b, (b, u.acc) ∉ codes arena (rootOf arena)

section
variable {arena : List Node} {u : Unpacker} {w : Walker}

theorem ArenaOk.nil_not_mem_codes (h : ArenaOk arena) (b : Symbol) : (b, []) ∉ codes arena (rootOf arena) :=
  fun hb => absurd (h.code_length hb).1 (by simp)

theorem ArenaOk.tracks_root (h : ArenaOk arena) (emitted : List Symbol) (stopped : Bool) :
    Tracks arena ⟨[], emitted, stopped⟩ ⟨rootOf arena, emitted, stopped⟩ :=
  ⟨rfl, rfl, (recordAt_nil arena).symm, h.nil_not_mem_codes⟩

/-- Away from a leaf the walker goes on as the path does. -/
theorem Tracks.record_walkNext_of_not_leaf (ht : Tracks arena u w)
    (hnot : ∀ b f, recordAt arena u.acc ≠ some (.leaf b f)) (bit : Bool) :
    (walkNext arena w.node bit).bind (arena[·]?) = recordAt arena (u.acc ++ [bit]) := by
  rw [walkNext_of_not_leaf (ht.record ▸ hnot), ht.record, recordAt_concat]

/-- A walker at a leaf stands at the root of a single-leaf tree, with nothing in the accumulator. -/
theorem Tracks.single_of_leaf (ht : Tracks arena u w) (h : ArenaOk arena) {b : Symbol} {f : NodeFreq}
    (hleaf : recordAt arena u.acc = some (.leaf b f)) (bit : Bool) :
    u.acc = [] ∧ codes arena (rootOf arena) = [(b, [false])] ∧
      (walkNext arena w.node bit).bind (arena[·]?) = if bit then none else some (.leaf b f) := by
  obtain ⟨hacc, harena⟩ := h.eq_nil_of_recordAt_leaf (ht.unmatched b) hleaf
  refine ⟨hacc, by rw [harena]; rfl, ?_⟩
  rw [walkNext_of_leaf (ht.record.trans hleaf)]
  cases bit
  · exact ht.record.trans hleaf
  · rfl

/-- One bit makes a code of the accumulator exactly where it takes the walker to a leaf. -/
theorem Tracks.mem_codes_iff (ht : Tracks arena u w) (h : ArenaOk arena) {b : Symbol} {bit : Bool} :
    (b, u.acc ++ [bit]) ∈ codes arena (rootOf arena) ↔
      ∃ f, (walkNext arena w.node bit).bind (arena[·]?) = some (.leaf b f) := by
  by_cases hleaf : ∃ b₀ f₀, recordAt arena u.acc = some (.leaf b₀ f₀)
  · obtain ⟨b₀, f₀, hleaf⟩ := hleaf
    obtain ⟨hacc, hcodes, hnext⟩ := ht.single_of_leaf h hleaf bit
    rw [hacc, hcodes, hnext]
    cases bit <;> simp [eq_comm]
  · have hnot (b₀ f₀) : recordAt arena u.acc ≠ some (.leaf b₀ f₀) := fun heq => hleaf ⟨b₀, f₀, heq⟩
    rw [ht.record_walkNext_of_not_leaf hnot, h.mem_codes_concat_iff hnot]

/-- Where one bit does not take the walker to a leaf, the walker stands where the path leads. -/
theorem Tracks.record_walkNext (ht : Tracks arena u w) (h : ArenaOk arena) {bit : Bool}
    (hnext : ∀ b f, (walkNext arena w.node bit).bind (arena[·]?) ≠ some (.leaf b f)) :
    (walkNext arena w.node bit).bind (arena[·]?) = recordAt arena (u.acc ++ [bit]) := by
  by_cases hleaf : ∃ b₀ f₀, recordAt arena u.acc = some (.leaf b₀ f₀)
  · obtain ⟨b₀, f₀, hleaf⟩ := hleaf
    obtain ⟨_, _, hsingle⟩ := ht.single_of_leaf h hleaf bit
    cases bit
    · exact absurd hsingle (hnext b₀ f₀)
    · rw [hsingle, recordAt_concat, hleaf]
      rfl
  · exact ht.record_walkNext_of_not_leaf (fun b₀ f₀ heq => hleaf ⟨b₀, f₀, heq⟩) bit

/-- One bit keeps the two decoders together. -/
theorem Tracks.step (ht : Tracks arena u w) (h : ArenaOk arena) {symbolFor : BitString → Option Symbol}
    (hfor : ∀ {c b}, symbolFor c = some b ↔ (b, c) ∈ codes arena (rootOf arena)) (n : Nat) (bit : Bool) :
    Tracks arena (unpackBit symbolFor n u bit) (walkBit arena (rootOf arena) n w bit) := by
  obtain ⟨acc, emitted, stopped⟩ := u
  have hstopped : w.stopped = stopped := ht.stopped
  cases stopped with
  | true => rwa [unpackBit_stopped rfl, walkBit_stopped hstopped]
  | false =>
    cases hm : symbolFor (acc ++ [bit]) with
    | some b =>
      obtain ⟨f, hleaf⟩ := (ht.mem_codes_iff h).1 (hfor.1 hm)
      rw [unpackBit_some hm, walkBit_leaf hstopped hleaf, ht.emitted]
      exact h.tracks_root _ _
    | none =>
      have hno (b : Symbol) : (b, acc ++ [bit]) ∉ codes arena (rootOf arena) := fun hb => by
        simp [hfor.2 hb] at hm
      have hnot (b f) : (walkNext arena w.node bit).bind (arena[·]?) ≠ some (.leaf b f) := fun hleaf =>
        hno b ((ht.mem_codes_iff h).2 ⟨f, hleaf⟩)
      obtain ⟨node, hwalk, hnode⟩ := walkBit_not_leaf (root := rootOf arena) (n := n) hstopped hnot
      rw [unpackBit_none hm, hwalk]
      exact ⟨ht.emitted, rfl, hnode.trans (ht.record_walkNext h hnot), hno⟩

theorem Tracks.foldl (ht : Tracks arena u w) (h : ArenaOk arena) {symbolFor : BitString → Option Symbol}
    (hfor : ∀ {c b}, symbolFor c = some b ↔ (b, c) ∈ codes arena (rootOf arena)) (n : Nat) (bits : BitString) :
    Tracks arena (bits.foldl (unpackBit symbolFor n) u) (bits.foldl (walkBit arena (rootOf arena) n) w) := by
  induction bits generalizing u w with
  | nil => exact ht
  | cons bit bits ih => exact ih (ht.step h hfor n bit)

end

/-- Settles O48: from the root on the walker tracks the accumulator. -/
theorem accumulatorAndTreeWalkAgree : Obligations.AccumulatorAndTreeWalkAgree := by
  intro s bits n hinv _
  obtain ⟨_, _, htree, htables⟩ := hinv
  obtain ⟨_, hroot, _, harena⟩ := id htree
  have hfor {c b} : s.ensureC2s.symbolFor c = some b ↔ (b, c) ∈ codes s.arena (rootOf s.arena) := by
    rw [State.ensureC2s_symbolFor htree htables, State.codes_eq htree, harena.lookup_codes]
  have htracks := (harena.tracks_root [] false).foldl harena hfor n bits
  rw [← hroot] at htracks
  exact ⟨htracks.emitted.symm, htracks.stopped.symm⟩

end Sys2Proof.Machine
end

section
/-! PROOFS. The container header (44_container.md R181 to R188): what HDR_WRITE appends is the header of the table's
entries, and HDR_READ loads the entries of a header one by one up to the failing one. -/

namespace Sys2Proof.Machine

open Sys2Proof.Claims

/-! ## The entries of a table (R181) -/

/-- The keys with their counts, in natural key order. -/
def State.entries (s : State) : List (Symbol × Word) := s.keys.map fun b => (b, s.freqOf b)

theorem State.entries_symbols (s : State) : s.entries.map Prod.fst = s.keys := by
  simp [State.entries, Function.comp_def]

theorem State.entries_length (s : State) : s.entries.length = popcount s.present := by
  rw [State.entries, List.length_map, State.keys_length]

theorem State.entries_ascending (s : State) : Ascending s.entries :=
  List.pairwise_map.2 s.keys_ascending

theorem State.mem_entries {s : State} {b : Symbol} {f : Word} :
    (b, f) ∈ s.entries ↔ s.isKey b = true ∧ f = s.freqOf b := by
  simp only [State.entries, List.mem_map, State.mem_keys, Prod.mk.injEq]
  constructor
  · rintro ⟨_, hkey, rfl, rfl⟩
    exact ⟨hkey, rfl⟩
  · rintro ⟨hkey, rfl⟩
    exact ⟨b, hkey, rfl, rfl⟩

theorem State.entries_lookup (s : State) (b : Symbol) :
    s.entries.lookup b = if s.isKey b = true then some (s.freqOf b) else none := by
  split
  next hkey =>
    refine (lookup_eq_some_iff_mem fun a f g hf hg => ?_).2 (State.mem_entries.2 ⟨hkey, rfl⟩)
    exact (State.mem_entries.1 hf).2.trans (State.mem_entries.1 hg).2.symm
  next hkey =>
    refine List.lookup_eq_none_iff.2 fun e he => bne_iff_ne.2 fun heq => hkey ?_
    exact heq ▸ (State.mem_entries.1 he).1

/-! ## HDR_WRITE (R182, R183) -/

theorem le64_length (v : Word) : (le64 v).length = 8 := by simp [le64]

theorem entryListBytes_length (es : List (Symbol × Word)) : (entryListBytes es).length = 9 * es.length := by
  simp [entryListBytes, List.length_flatMap, le64_length, Nat.mul_comm]

theorem header_length (es : List (Symbol × Word)) (n : Word) : (header es n).length = 16 + 9 * es.length := by
  simp only [header, List.length_append, le64_length, entryListBytes_length]

theorem headerBytes_eq_header (s : State) : headerBytes s = header s.entries s.symCount := by
  have hentries : s.keys.flatMap (entryBytes s) = entryListBytes s.entries := by
    rw [entryListBytes, State.entries, List.flatMap_map]
    exact List.flatMap_congr fun b _ => congrArg (b :: ·) (outBytes64_eq_le64 _)
  rw [headerBytes, header, hentries, outBytes64_eq_le64, outBytes64_eq_le64, State.entries_length]

/-- What HDR_WRITE leaves, in the statements' words. -/
theorem hdrWriteBody_eq (s : State) : hdrWriteBody s = { s with
    out := s.out ++ header s.entries s.symCount
    rptHdr := BitVec.ofNat 64 (16 + 9 * s.entries.length) } := by
  rw [hdrWriteBody, headerBytes_eq_header, State.entries_length]
  rfl

/-- Settles O50: the header HDR_WRITE appends is the header of the table's entries. -/
theorem hdrWriteAppendsTheHeader : Obligations.HdrWriteAppendsTheHeader := fun s =>
  ⟨(hdrWriteBody s).complete, s.entries, rfl, s.entries_ascending, fun _ _ => State.mem_entries, s.entries_length,
    header_length _ _, congrArg State.complete (hdrWriteBody_eq s)⟩

/-! ## Loading entries (R184) -/

/-- The table after the entries are loaded into it; every other field is as it was. -/
def State.loadEntries (s : State) (es : List (Symbol × Word)) : State :=
  es.foldl (fun t e => t.setEntry e.1 e.2) s

theorem loadEntries_cons (s : State) (e : Symbol × Word) (es : List (Symbol × Word)) :
    s.loadEntries (e :: es) = (s.setEntry e.1 e.2).loadEntries es := rfl

theorem loadEntries_eq (s : State) (es : List (Symbol × Word)) :
    ∃ p f, s.loadEntries es = { s with present := p, freq := f } := by
  induction es generalizing s with
  | nil => exact ⟨_, _, rfl⟩
  | cons e es ih =>
    obtain ⟨p, f, h⟩ := ih (s.setEntry e.1 e.2)
    exact ⟨p, f, h⟩

theorem loadEntries_isKey (s : State) (es : List (Symbol × Word)) (b : Symbol) :
    (s.loadEntries es).isKey b = true ↔ s.isKey b = true ∨ b ∈ es.map Prod.fst := by
  induction es generalizing s with
  | nil => simp [State.loadEntries]
  | cons e es ih =>
    rw [loadEntries_cons, ih, State.setEntry_isKey, List.map_cons, List.mem_cons, Bool.or_eq_true, beq_iff_eq, or_assoc]

/-- Among distinct symbols the first entry of a symbol is its only one, so it is the one that stays. -/
theorem loadEntries_freqOf {es : List (Symbol × Word)} (hnodup : (es.map Prod.fst).Nodup) (s : State) (b : Symbol) :
    (s.loadEntries es).freqOf b = (es.lookup b).getD (s.freqOf b) := by
  induction es generalizing s with
  | nil => rfl
  | cons e es ih =>
    obtain ⟨hnew, hrest⟩ := List.nodup_cons.1 hnodup
    rw [loadEntries_cons, ih hrest, State.setEntry_freqOf, List.lookup_cons]
    by_cases hb : b = e.1
    · have hnone : es.lookup b = none :=
        List.lookup_eq_none_iff.2 fun d hd => bne_iff_ne.2 fun heq => hnew (hb ▸ heq ▸ List.mem_map_of_mem hd)
      simp [hb ▸ hnone, hb]
    · simp [hb, beq_eq_false_iff_ne.2 hb]

/-- Entries loaded into an empty table. -/
theorem clearTable_loadEntries_tableHolds (s : State) {es : List (Symbol × Word)}
    (hnodup : (es.map Prod.fst).Nodup) : TableHolds (s.clearTable.loadEntries es) es := by
  refine fun b => ⟨?_, ?_⟩
  · simp [loadEntries_isKey]
  · rw [loadEntries_freqOf hnodup, State.clearTable_freqOf]

theorem inRead64_le64 (v : Word) (rest : List Byte) : inRead64 (le64 v ++ rest) = some (v, rest) := by
  rw [← outBytes64_eq_le64, inRead64_outBytes64]

/-- The loop of HDR_READ loads entries of new, distinct symbols. -/
theorem readEntries_append {es : List (Symbol × Word)} (hnodup : (es.map Prod.fst).Nodup) {s : State}
    (hnew : ∀ e ∈ es, s.isKey e.1 = false) (k : Nat) (rest : List Byte) :
    readEntries (es.length + k) (entryListBytes es ++ rest) s = readEntries k rest (s.loadEntries es) := by
  induction es generalizing s with
  | nil => rw [List.length_nil, Nat.zero_add]; rfl
  | cons e es ih =>
    obtain ⟨hfirst, hrest⟩ := List.nodup_cons.1 hnodup
    have hbytes : entryListBytes (e :: es) ++ rest = e.1 :: (le64 e.2 ++ (entryListBytes es ++ rest)) := by
      simp [entryListBytes]
    have hlater : ∀ d ∈ es, (s.setEntry e.1 e.2).isKey d.1 = false := fun d hd => by
      have hne : d.1 ≠ e.1 := fun heq => hfirst (heq ▸ List.mem_map_of_mem hd)
      rw [State.setEntry_isKey, hnew d (List.mem_cons_of_mem e hd), beq_eq_false_iff_ne.2 hne, Bool.false_or]
    rw [List.length_cons, Nat.add_right_comm, hbytes, readEntries, inRead64_le64]
    simp only [hnew e List.mem_cons_self, Bool.false_eq_true, if_false]
    exact ih hrest hlater

/-- Fewer than nine bytes hold no entry: the loop reads them all and stops. -/
theorem readEntries_truncated {rest : List Byte} (h : rest.length < 9) (k : Nat) (s : State) :
    readEntries (k + 1) rest s = (s, [], false) := by
  cases rest with
  | nil => rfl
  | cons b rest => rw [readEntries, inRead64_short (Nat.lt_of_succ_lt_succ h)]

/-- The loop reads an entry of a symbol that is a key, and stops. -/
theorem readEntries_duplicate {s : State} {b : Symbol} (h : s.isKey b = true) (k : Nat) (f : Word)
    (rest : List Byte) : readEntries (k + 1) (b :: (le64 f ++ rest)) s = (s, rest, false) := by
  simp [readEntries, inRead64_le64, h]

/-! ## The body of HDR_READ (R184, R185) -/

/-- The state after HDR_READ has loaded `es` into the emptied table and read `read` bytes. -/
def State.headerLoaded (s : State) (es : List (Symbol × Word)) (read : Nat) : State :=
  (s.clearTable.loadEntries es).consume read

section
variable {s : State} {es : List (Symbol × Word)}

theorem State.headerLoaded_eq (s : State) (es : List (Symbol × Word)) (read : Nat) : s.headerLoaded es read = { s with
    freq := (s.headerLoaded es read).freq
    present := (s.headerLoaded es read).present
    inPtr := (s.consume read).inPtr } := by
  obtain ⟨p, f, h⟩ := loadEntries_eq s.clearTable es
  rw [State.headerLoaded, h]
  rfl

theorem State.headerLoaded_tableHolds (s : State) (hnodup : (es.map Prod.fst).Nodup) (read : Nat) :
    TableHolds (s.headerLoaded es read) es :=
  clearTable_loadEntries_tableHolds s hnodup

theorem State.headerLoaded_inPtr (s : State) (es : List (Symbol × Word)) (read : Nat) :
    (s.headerLoaded es read).inPtr = (s.consume read).inPtr := by
  rw [s.headerLoaded_eq es read]

theorem State.headerLoaded_unread (s : State) (es : List (Symbol × Word)) (read : Nat) :
    (s.headerLoaded es read).unread = (s.consume read).unread := by
  rw [s.headerLoaded_eq es read]
  rfl

theorem hdrReadBody_countTruncated (h : s.unread.length < 8) :
    hdrReadBody s = .raised .header (s.headerLoaded [] s.unread.length) := by
  have hread : inRead64 s.clearTable.unread = none := inRead64_short h
  simp only [hdrReadBody, hread]
  rfl

section
variable {n : Word} {rest : List Byte}

theorem clearTable_inRead64 (hunread : s.unread = le64 n ++ rest) :
    inRead64 s.clearTable.unread = some (n, rest) := by
  rw [← inRead64_le64, ← hunread]
  rfl

theorem hdrReadBody_tooManyEntries (hunread : s.unread = le64 n ++ rest) (hn : 256 < n.toNat) :
    hdrReadBody s = .raised .header (s.headerLoaded [] 8) := by
  simp only [hdrReadBody, clearTable_inRead64 hunread, if_pos hn]
  rfl

theorem hdrReadBody_symbolCountTruncated (hunread : s.unread = le64 n ++ rest) (hn : n.toNat ≤ 256)
    (hrest : rest.length < 8) : hdrReadBody s = .raised .header (s.headerLoaded [] s.unread.length) := by
  simp only [hdrReadBody, clearTable_inRead64 hunread, if_neg (Nat.not_lt.2 hn), inRead64_short hrest]
  rfl

/-- With both counts read and `es` loaded, HDR_READ ends as its loop does on the bytes after those entries. -/
theorem hdrReadBody_of_readEntries {m : Word} {tail : List Byte} {k used : Nat} {ended : Bool}
    (hunread : s.unread = le64 n ++ le64 m ++ entryListBytes es ++ tail) (hn : n.toNat ≤ 256)
    (hnodup : (es.map Prod.fst).Nodup) (hk : n.toNat = es.length + k) (hused : tail.length = used + rest.length)
    (hstop : readEntries k tail (s.clearTable.loadEntries es) = (s.clearTable.loadEntries es, rest, ended)) :
    hdrReadBody s =
      if ended then
        .done { s.headerLoaded es (16 + 9 * es.length + used) with
          symCount := m
          rptHdr := BitVec.ofNat 64 (16 + 9 * n.toNat) }
      else .raised .header (s.headerLoaded es (16 + 9 * es.length + used)) := by
  have hloop := readEntries_append hnodup (s := s.clearTable) (fun e _ => s.clearTable_isKey e.1) k tail
  rw [hstop, ← hk] at hloop
  have hread : s.clearTable.unread.length - rest.length = 16 + 9 * es.length + used := by
    have hlen : s.clearTable.unread.length = s.unread.length := rfl
    simp only [hlen, hunread, List.length_append, le64_length, entryListBytes_length]
    omega
  simp only [List.append_assoc] at hunread
  simp only [hdrReadBody, clearTable_inRead64 hunread, if_neg (Nat.not_lt.2 hn), inRead64_le64, hloop]
  rw [← hread]
  cases ended <;> rfl

end

/-- Distinct symbols are at most 256. -/
theorem length_le_of_nodup_symbols (hnodup : (es.map Prod.fst).Nodup) : es.length ≤ 256 := by
  have hle := (hnodup.subperm fun b _ => mem_allSymbols b).length_le
  simpa [allSymbols] using hle

/-- HDR_READ of a well-formed header. -/
theorem hdrReadBody_header {n : Word} {rest : List Byte} (hnodup : (es.map Prod.fst).Nodup)
    (hunread : s.unread = header es n ++ rest) :
    hdrReadBody s = .done { s.headerLoaded es (16 + 9 * es.length) with
      symCount := n
      rptHdr := BitVec.ofNat 64 (16 + 9 * es.length) } := by
  have hle := length_le_of_nodup_symbols hnodup
  have hcount : (BitVec.ofNat 64 es.length).toNat = es.length := Nat.mod_eq_of_lt (by omega)
  rw [hdrReadBody_of_readEntries (k := 0) (used := 0) (ended := true) hunread (by omega) hnodup hcount
    (Nat.zero_add _).symm rfl, hcount]
  rfl

/-- Settles O51: the loop loads every entry and leaves the bytes after the header. -/
theorem hdrReadLoadsTheTable : Obligations.HdrReadLoadsTheTable := by
  intro s es n rest hstreams hin hnodup hunread
  have hlen : 16 + 9 * es.length ≤ s.unread.length := by
    rw [hunread, List.length_append, header_length]
    exact Nat.le_add_right _ _
  refine ⟨State.complete { s.headerLoaded es (16 + 9 * es.length) with
      symCount := n
      rptHdr := BitVec.ofNat 64 (16 + 9 * es.length) }, ?_, ?_,
    s.headerLoaded_tableHolds hnodup (16 + 9 * es.length), ?_, ?_⟩
  · rw [exec, execHdrRead, requireInput_attached hin, hdrReadBody_header hnodup hunread, Body.finish_done]
  · rw [s.headerLoaded_eq es]
    rfl
  · rw [← List.drop_left (l₁ := header es n) (l₂ := rest), ← hunread, header_length,
      ← State.unread_consume hstreams hlen, ← s.headerLoaded_unread es]
    rfl
  · rw [State.complete_inPtr, s.headerLoaded_inPtr es, State.consume_inPtr_toNat hstreams hlen, Nat.add_assoc]

/-! ## Malformed headers (R185) -/

section
variable {bytes : List Byte} {read : Nat}

theorem malformedHeader_nodup (h : MalformedHeader bytes es read) : (es.map Prod.fst).Nodup := by
  cases h with
  | countTruncated _ _ | tooManyEntries _ _ _ | symbolCountTruncated _ _ _ _ => exact List.nodup_nil
  | entryTruncated _ _ _ _ _ hnodup _ _ | duplicate _ _ _ _ _ _ _ hnodup _ _ => exact hnodup

/-- The failing read ends within the bytes. -/
theorem malformedHeader_read_le (h : MalformedHeader bytes es read) : read ≤ bytes.length := by
  cases h with
  | countTruncated _ _ => exact le_rfl
  | tooManyEntries n rest _ | symbolCountTruncated n rest _ _ => simp [le64_length]
  | entryTruncated n m _ rest _ _ _ _ | duplicate n m _ b f rest _ _ _ _ =>
    simp only [List.length_append, List.length_cons, le64_length, entryListBytes_length]
    omega

/-- HDR_READ of a malformed header, one case for each way it is malformed. -/
theorem hdrReadBody_malformed (h : MalformedHeader bytes es read) (hunread : s.unread = bytes) :
    hdrReadBody s = .raised .header (s.headerLoaded es read) := by
  cases h with
  | countTruncated _ hshort =>
    subst hunread
    exact hdrReadBody_countTruncated hshort
  | tooManyEntries n rest hn => exact hdrReadBody_tooManyEntries hunread hn
  | symbolCountTruncated n rest hn hshort =>
    rw [hdrReadBody_symbolCountTruncated hunread hn hshort, hunread, List.length_append, le64_length]
  | entryTruncated n m _ rest hn hnodup hlt hshort =>
    obtain ⟨k, hk⟩ := Nat.exists_eq_add_of_lt hlt
    exact hdrReadBody_of_readEntries hunread hn hnodup hk rfl (readEntries_truncated hshort k _)
  | duplicate n m _ b f rest hn hnodup hlt hmem =>
    obtain ⟨k, hk⟩ := Nat.exists_eq_add_of_lt hlt
    have hkey : (s.clearTable.loadEntries es).isKey b = true := (loadEntries_isKey _ _ _).2 (.inr hmem)
    have hused : (b :: (le64 f ++ rest)).length = 9 + rest.length := by
      rw [List.length_cons, List.length_append, le64_length, Nat.add_right_comm]
    exact hdrReadBody_of_readEntries hunread hn hnodup hk hused (readEntries_duplicate hkey k f rest)

end

end

/-- Settles O52: HDR_READ aborts where its read fails, and DECOMPRESS aborts there too, with its tree invalidated and
its input rewound before. -/
theorem hdrReadReportsAMalformedHeader : Obligations.HdrReadReportsAMalformedHeader := by
  intro s es read hstreams hin
  constructor <;> intro h
  · refine ⟨(s.headerLoaded es read).raise .header, ?_, ?_,
      s.headerLoaded_tableHolds (malformedHeader_nodup h) read, ?_⟩
    · rw [exec, execHdrRead, requireInput_attached hin, hdrReadBody_malformed h rfl, Body.finish_raised]
    · rw [s.headerLoaded_eq es]
      rfl
    · rw [State.raise_inPtr, s.headerLoaded_inPtr es, State.consume_inPtr_toNat hstreams (malformedHeader_read_le h)]
  · have hunread : s.invalidate.rewind.unread = s.inData := State.unread_rewind _
    have hstart : StreamsOk s.invalidate.rewind := ⟨Nat.zero_le _, hstreams.2⟩
    have hle : read ≤ s.invalidate.rewind.unread.length := hunread ▸ malformedHeader_read_le h
    refine ⟨(s.invalidate.rewind.headerLoaded es read).raise .header, ?_, ?_,
      s.invalidate.rewind.headerLoaded_tableHolds (malformedHeader_nodup h) read, ?_⟩
    · rw [exec, execDecompress, requireInput_attached hin, decompressBody, hdrReadBody_malformed h hunread,
        Body.raised_andThen, Body.finish_raised]
    · rw [s.invalidate.rewind.headerLoaded_eq es]
      rfl
    · rw [State.raise_inPtr, s.invalidate.rewind.headerLoaded_inPtr es, State.consume_inPtr_toNat hstart hle]
      exact Nat.zero_add read

/-! ## The round trip (R188) -/

theorem State.present_eq_of_isKey {s t : State} (h : ∀ b, s.isKey b = t.isKey b) : s.present = t.present :=
  BitVec.eq_of_getLsbD_eq fun k hk => by
    simpa [State.isKey, Nat.mod_eq_of_lt hk] using h (BitVec.ofNat 8 k)

/-- Settles O53: the entries of a table have distinct symbols, so HDR_READ loads them, and they determine the table. -/
theorem headerRoundTrip : Obligations.HeaderRoundTrip := by
  intro s
  refine ⟨(hdrWriteBody s).complete, headerBytes s, rfl, rfl, fun u rest hstreams hin hunread => ?_⟩
  rw [headerBytes_eq_header] at hunread
  obtain ⟨v, hexec, hv, htable, _, _⟩ := hdrReadLoadsTheTable u s.entries s.symCount rest hstreams hin
    (s.entries_symbols ▸ s.keys_nodup) hunread
  refine ⟨v, hexec, State.present_eq_of_isKey fun b => ?_, fun b => ?_, ?_, ?_⟩
  · rw [Bool.eq_iff_iff, (htable b).1, s.entries_symbols, State.mem_keys]
  · rw [(htable b).2, s.entries_lookup]
    split <;> rfl
  · rw [hv]
    rfl
  · rw [hv, hdrWriteBody_eq]
    rfl

end Sys2Proof.Machine
end

section
/-! PROOFS. The container COMPRESS writes (45_orchestration.md R200, R201): the header of the input's table, then the
packed codes of its tree. -/

namespace Sys2Proof.Machine

open Sys2Proof.Claims

/-- A symbol that is no key has count 0, as in a table that was cleared before it was filled. -/
theorem tableHolds_entries {s : State} (h : ∀ b, s.isKey b = false → s.freqOf b = 0) : TableHolds s s.entries := by
  refine fun b => ⟨by rw [s.entries_symbols, State.mem_keys], ?_⟩
  rw [s.entries_lookup]
  cases hkey : s.isKey b with
  | true => rfl
  | false => exact h b hkey

section
variable {s t : State}

theorem State.isKey_congr (h : t.present = s.present) : t.isKey = s.isKey :=
  funext fun b => congrArg (BitVec.getLsbD · b.toNat) h

theorem State.freqOf_congr (h : t.freq = s.freq) : t.freqOf = s.freqOf :=
  funext fun b => congrArg (fun f : Vector Word 256 => f[b.toNat]'b.isLt) h

theorem tableHolds_congr (hp : t.present = s.present) (hf : t.freq = s.freq) {es : List (Symbol × Word)} :
    TableHolds t es ↔ TableHolds s es := by
  simp only [TableHolds, State.isKey_congr hp, State.freqOf_congr hf]

/-- The tree TREE_BUILD makes depends on the table only (41_tree.md R127). -/
theorem treeBuildBody_same_tree (hp : t.present = s.present) (hf : t.freq = s.freq) :
    Part.Same .tree (treeBuildBody s).complete (treeBuildBody t).complete := by
  have hleaves : t.leafNodes = s.leafNodes :=
    leafNodes_congr (congrFun (State.isKey_congr hp)) fun b _ => congrFun (State.freqOf_congr hf) b
  simp [Part.Same, treeBuildBody, hleaves]

theorem State.codes_congr (h : Part.Same .tree s t) : t.codes = s.codes := by
  obtain ⟨harena, hroot, _⟩ := h
  rw [State.codes, State.codes, harena, hroot]

end

theorem codesAre_congr {s t : State} (h : t.codes = s.codes) {syms : List Symbol} {cs : List BitString} :
    CodesAre t syms cs ↔ CodesAre s syms cs := by
  rw [CodesAre, CodesAre, h]

theorem State.afterPack_codes (s : State) (read coded : Nat) (bytes : List Byte) :
    (s.afterPack read coded bytes).codes = s.codes := by
  simp [State.codes, State.afterPack]

/-- A list of symbols that are all keys has its codes in the tree built from the table. -/
theorem exists_codesAre_treeBuild (s : State) {syms : List Symbol} (h : ∀ b ∈ syms, s.isKey b = true) :
    ∃ cs, CodesAre (treeBuildBody s).complete syms cs := by
  obtain ⟨t, hexec, hcode, _⟩ := codeSetIsPrefixFreeAndComplete s
  obtain rfl : (treeBuildBody s).complete = t := Host.Outcome.next.inj hexec
  have hcodes : (syms.map fun b => (treeBuildBody s).complete.codes.lookup b) ∈ Set.range (List.map some) := by
    rw [Set.range_list_map]
    intro c hc
    obtain ⟨b, hb, rfl⟩ := List.mem_map.1 hc
    obtain ⟨d, hd⟩ := Option.isSome_iff_exists.1 ((hcode b).trans (h b hb))
    exact ⟨d, hd.symm⟩
  obtain ⟨cs, hcs⟩ := hcodes
  exact ⟨cs, hcs.symm⟩

/-! ## What COMPRESS has before its PACK -/

section
variable {s : State}

theorem streamsOk_rewind (hin : s.inAvail = true) (hlen : s.inData.length ≤ Config.maxStream) : StreamsOk s.rewind :=
  ⟨Nat.zero_le _, hlen, fun h => absurd (hin.symm.trans h) Bool.noConfusion⟩

/-- The scan into the emptied table. -/
theorem ftClearBody_scanned_eq (h : StreamsOk s) : (ftClearBody s).scanned = { s with
    freq := (ftClearBody s).scanned.freq
    present := (ftClearBody s).scanned.present
    symCount := BitVec.ofNat 64 s.unread.length
    rptOrig := BitVec.ofNat 64 s.unread.length
    inPtr := BitVec.ofNat 64 s.inData.length } := by
  have hscanned := scanned_eq (s := ftClearBody s) h
  have hsym : (ftClearBody s).symCount + BitVec.ofNat 64 (ftClearBody s).unread.length =
    BitVec.ofNat 64 s.unread.length := BitVec.zero_add _
  rw [hsym] at hscanned
  exact hscanned

/-- The table, the tree and the header of the whole input, and nothing else, are written. -/
theorem headerWritten_eq (h : StreamsOk s) : s.headerWritten = { s with
    out := s.out ++ header (ftClearBody s).scanned.entries (BitVec.ofNat 64 s.unread.length)
    freq := s.headerWritten.freq
    present := s.headerWritten.present
    symCount := BitVec.ofNat 64 s.unread.length
    arena := s.headerWritten.arena
    root := s.headerWritten.root
    rootValid := s.headerWritten.rootValid
    treeBuilt := true
    s2cValid := false
    c2sValid := false
    rptOrig := BitVec.ofNat 64 s.unread.length
    rptHdr := BitVec.ofNat 64 (16 + 9 * (ftClearBody s).scanned.entries.length)
    inPtr := 0 } := by
  rw [State.headerWritten, hdrWriteBody_eq, ftClearBody_scanned_eq h]
  rfl

theorem headerWritten_present (s : State) : s.headerWritten.present = (ftClearBody s).scanned.present := by
  simp [State.headerWritten, hdrWriteBody, treeBuildBody]

theorem headerWritten_freq (s : State) : s.headerWritten.freq = (ftClearBody s).scanned.freq := by
  simp [State.headerWritten, hdrWriteBody, treeBuildBody]

theorem headerWritten_codeTablesOk (s : State) : CodeTablesOk s.headerWritten :=
  ⟨fun hv => absurd hv Bool.noConfusion, fun hv => absurd hv Bool.noConfusion⟩

/-- The entries of the input's table are its bytes with their counts. -/
theorem mem_ftClearBody_scanned_entries (h : s.unread.length < 2 ^ 64) {b : Symbol} {f : Word} :
    (b, f) ∈ (ftClearBody s).scanned.entries ↔ b ∈ s.unread ∧ f = BitVec.ofNat 64 (s.unread.count b) := by
  rw [State.mem_entries, ftClearBody_scanned_isKey, decide_eq_true_iff, ← ftClearBody_scanned_freqOf h b,
    BitVec.ofNat_toNat, BitVec.setWidth_eq]

theorem ftClearBody_scanned_tableHolds (h : s.unread.length < 2 ^ 64) :
    TableHolds (ftClearBody s).scanned (ftClearBody s).scanned.entries :=
  tableHolds_entries fun b hb => BitVec.eq_of_toNat_eq <| by
    rw [ftClearBody_scanned_isKey, decide_eq_false_iff_not] at hb
    rw [ftClearBody_scanned_freqOf h, List.count_eq_zero_of_not_mem hb]
    rfl

end

/-! ## What COMPRESS leaves -/

/-- The state after the PACK of COMPRESS has written `payload`. -/
def State.compressed (s : State) (payload : List Byte) : State :=
  s.rewind.headerWritten.afterPack s.inData.length s.inData.length payload

section
variable {s : State}

theorem State.compressed_frame_eq (hin : s.inAvail = true) (hlen : s.inData.length ≤ Config.maxStream)
    (payload : List Byte) : s.compressed payload = { s with
      out := s.out ++ header (ftClearBody s.rewind).scanned.entries (BitVec.ofNat 64 s.inData.length) ++ payload
      freq := (s.compressed payload).freq
      present := (s.compressed payload).present
      symCount := BitVec.ofNat 64 s.inData.length
      arena := (s.compressed payload).arena
      root := (s.compressed payload).root
      rootValid := (s.compressed payload).rootValid
      treeBuilt := true
      s2c := (s.compressed payload).s2c
      s2cValid := true
      c2s := (s.compressed payload).c2s
      c2sValid := false
      rptOrig := BitVec.ofNat 64 s.inData.length
      rptPacked := BitVec.ofNat 64 payload.length
      rptHdr := BitVec.ofNat 64 (16 + 9 * (ftClearBody s.rewind).scanned.entries.length)
      inPtr := BitVec.ofNat 64 s.inData.length } := by
  have hstart := headerWritten_eq (streamsOk_rewind hin hlen)
  rw [State.unread_rewind] at hstart
  have hptr : BitVec.ofNat 64 s.inData.length = BitVec.ofNat 64 ((0 : Word).toNat + s.inData.length) := by
    rw [show (0 : Word).toNat = 0 from rfl, Nat.zero_add]
  rw [State.compressed, State.afterPack, State.ensureS2c_eq, hstart, hptr]
  rfl

theorem State.compressed_present (s : State) (payload : List Byte) :
    (s.compressed payload).present = (ftClearBody s.rewind).scanned.present := by
  rw [State.compressed, State.afterPack_frame_eq, headerWritten_present]

theorem State.compressed_freq (s : State) (payload : List Byte) :
    (s.compressed payload).freq = (ftClearBody s.rewind).scanned.freq := by
  rw [State.compressed, State.afterPack_frame_eq, headerWritten_freq]

theorem State.compressed_codeOf (s : State) (payload : List Byte) (b : Symbol) :
    (s.compressed payload).codeOf b = (s.compressed payload).codes.lookup b := by
  rw [State.compressed, State.afterPack_codeOf (headerWritten_codeTablesOk s.rewind), State.afterPack_codes]

theorem State.compressed_tree (s : State) (payload : List Byte) :
    Part.Same .tree (treeBuildBody (ftClearBody s.rewind).scanned).complete (s.compressed payload) := by
  rw [State.compressed, State.afterPack_frame_eq]
  exact ⟨rfl, rfl, rfl, rfl⟩

/-- Every byte of the input has a code, so COMPRESS completes with the packed codes written. -/
theorem exec_compress_of_codesAre (hin : s.inAvail = true) (hlen : s.inData.length ≤ Config.maxStream)
    {cs : List BitString} (hcs : CodesAre (treeBuildBody (ftClearBody s.rewind).scanned).complete s.inData cs) :
    exec .compress s = .next (s.compressed (packFlush (packed cs.flatten))).complete := by
  obtain ⟨_, hunread, _⟩ := headerWritten_streams s.rewind
  have hcoded : CodesAre s.rewind.headerWritten s.rewind.headerWritten.unread cs := hunread.symm ▸ hcs
  rw [exec_compress_eq hin hlen, packBody_of_codesAre (headerWritten_codeTablesOk s.rewind) hcoded, hunread,
    Body.finish_done]
  rfl

end

/-- Settles O54: PACK inside COMPRESS meets the header written, and every byte of the input has a code in the tree
of the input's table. -/
theorem compressWritesTheContainer : Obligations.CompressWritesTheContainer := by
  intro s hin hlen
  have hunread : s.rewind.unread = s.inData := s.unread_rewind
  have hlt : s.rewind.unread.length < 2 ^ 64 := hunread ▸ hlen.trans_lt (by decide)
  obtain ⟨cs, hcs⟩ := exists_codesAre_treeBuild (ftClearBody s.rewind).scanned (syms := s.inData) fun b hb => by
    rwa [ftClearBody_scanned_isKey, hunread, decide_eq_true_iff]
  obtain ⟨payload, hpayload⟩ : ∃ payload, payload = packFlush (packed cs.flatten) := ⟨_, rfl⟩
  have hexec := hpayload ▸ exec_compress_of_codesAre hin hlen hcs
  have hpresent := s.compressed_present payload
  have hfreq := s.compressed_freq payload
  have htree := s.compressed_tree payload
  obtain ⟨harena, hroot, _, hvalid⟩ := (treeBuildBody_same_tree hpresent.symm hfreq.symm).trans htree
  refine ⟨(s.compressed payload).complete, (ftClearBody s.rewind).scanned.entries, cs, payload, hexec,
    State.entries_ascending _, fun b f => ?_,
    (tableHolds_congr hpresent hfreq).2 (ftClearBody_scanned_tableHolds hlt),
    (codesAre_congr (State.codes_congr htree)).2 hcs, hpayload ▸ packFlush_packedAs cs.flatten,
    ⟨_, rfl, harena, hroot, hvalid⟩, s.compressed_codeOf payload,
    congrArg State.complete (State.compressed_frame_eq hin hlen payload)⟩
  rw [mem_ftClearBody_scanned_entries hlt, hunread]

end Sys2Proof.Machine
end

section
/-! PROOFS. Every input begins with a header or with a malformed one (44_container.md R181, R184, R185), and a header's
entries determine the table (R184). -/

namespace Sys2Proof.Machine

open Sys2Proof.Claims

/-! ## Header integers read back (R180) -/

theorem leBytes_ofLeBytes (bs : List Byte) : leBytes bs.length (ofLeBytes bs) = bs := by
  induction bs with
  | nil => rfl
  | cons b bs ih =>
    have hb := b.isLt
    have hrest : (b.toNat + 256 * ofLeBytes bs) / 256 = ofLeBytes bs := by omega
    have hfirst : BitVec.ofNat 8 (b.toNat + 256 * ofLeBytes bs) = b := BitVec.eq_of_toNat_eq (by simp; omega)
    rw [ofLeBytes, List.length_cons, leBytes, hrest, hfirst, ih]

/-- Eight bytes are a header integer. -/
theorem exists_le64_append {bytes : List Byte} (h : 8 ≤ bytes.length) :
    ∃ (v : Word) (rest : List Byte), bytes = le64 v ++ rest := by
  have hlen : (bytes.take 8).length = 8 := List.length_take_of_le h
  have hlt := ofLeBytes_lt (bytes.take 8)
  have hback := leBytes_ofLeBytes (bytes.take 8)
  rw [hlen] at hlt hback
  refine ⟨BitVec.ofNat 64 (ofLeBytes (bytes.take 8)), bytes.drop 8, ?_⟩
  rw [← outBytes64_eq_le64, outBytes64, BitVec.toNat_ofNat, Nat.mod_eq_of_lt (by omega), hback, List.take_append_drop]

/-! ## Every input has a header or a malformed one -/

theorem entryListBytes_concat (es : List (Symbol × Word)) (e : Symbol × Word) :
    entryListBytes (es ++ [e]) = entryListBytes es ++ e.1 :: le64 e.2 := by
  simp [entryListBytes]

/-- Bytes read as up to `k` entries: all of them are there, or fewer come before a truncated or a repeated one. -/
theorem exists_entries (k : Nat) (bytes : List Byte) : ∃ (es : List (Symbol × Word)) (rest : List Byte),
    (es.map Prod.fst).Nodup ∧ bytes = entryListBytes es ++ rest ∧
    (es.length = k ∨ es.length < k ∧ (rest.length < 9 ∨
      ∃ (b : Symbol) (f : Word) (tail : List Byte), rest = b :: (le64 f ++ tail) ∧ b ∈ es.map Prod.fst)) := by
  induction k with
  | zero => exact ⟨[], bytes, List.nodup_nil, rfl, .inl rfl⟩
  | succ k ih =>
    obtain ⟨es, rest, hnodup, rfl, hk | ⟨hlt, hstop⟩⟩ := ih
    · rcases Nat.lt_or_ge rest.length 9 with hshort | hlong
      · exact ⟨es, rest, hnodup, rfl, .inr ⟨hk.trans_lt k.lt_succ_self, .inl hshort⟩⟩
      · obtain ⟨b, rest, rfl⟩ := List.exists_cons_of_length_pos (Nat.zero_lt_of_lt hlong)
        obtain ⟨f, tail, rfl⟩ := exists_le64_append (Nat.le_of_succ_le_succ hlong)
        by_cases hb : b ∈ es.map Prod.fst
        · exact ⟨es, _, hnodup, rfl, .inr ⟨hk.trans_lt k.lt_succ_self, .inr ⟨b, f, tail, rfl, hb⟩⟩⟩
        · refine ⟨es ++ [(b, f)], tail, ?_, by simp [entryListBytes_concat], .inl (by simp [hk])⟩
          rw [List.map_append]
          exact List.nodup_append'.2 ⟨hnodup, List.nodup_singleton b, by simpa using hb⟩
    · exact ⟨es, rest, hnodup, rfl, .inr ⟨hlt.trans k.lt_succ_self, hstop⟩⟩

/-- The header forms of R181 and R185 leave out no input. -/
theorem header_or_malformedHeader (bytes : List Byte) :
    (∃ (es : List (Symbol × Word)) (n : Word) (payload : List Byte),
      (es.map Prod.fst).Nodup ∧ bytes = header es n ++ payload) ∨
    ∃ (es : List (Symbol × Word)) (read : Nat), MalformedHeader bytes es read := by
  rcases Nat.lt_or_ge bytes.length 8 with hshort | hlong
  · exact .inr ⟨[], _, .countTruncated bytes hshort⟩
  obtain ⟨n, bytes, rfl⟩ := exists_le64_append hlong
  rcases Nat.lt_or_ge 256 n.toNat with hmany | hn
  · exact .inr ⟨[], _, .tooManyEntries n bytes hmany⟩
  rcases Nat.lt_or_ge bytes.length 8 with hshort | hlong
  · exact .inr ⟨[], _, .symbolCountTruncated n bytes hn hshort⟩
  obtain ⟨m, bytes, rfl⟩ := exists_le64_append hlong
  obtain ⟨es, rest, hnodup, rfl, hk | ⟨hlt, hshort | ⟨b, f, tail, rfl, hb⟩⟩⟩ := exists_entries n.toNat bytes
  · refine .inl ⟨es, m, rest, hnodup, ?_⟩
    rw [header, hk, BitVec.ofNat_toNat, BitVec.setWidth_eq, List.append_assoc, List.append_assoc]
  · exact .inr ⟨es, _, by simpa using MalformedHeader.entryTruncated n m es rest hn hnodup hlt hshort⟩
  · exact .inr ⟨es, _, by simpa using MalformedHeader.duplicate n m es b f tail hn hnodup hlt hb⟩

/-! ## The table of some entries -/

theorem State.freq_eq_of_freqOf {s t : State} (h : ∀ b, s.freqOf b = t.freqOf b) : s.freq = t.freq :=
  Vector.ext fun k hk => by simpa [State.freqOf, Nat.mod_eq_of_lt hk] using h (BitVec.ofNat 8 k)

/-- The entries determine the table. -/
theorem tableHolds_unique {s t : State} {es : List (Symbol × Word)} (hs : TableHolds s es) (ht : TableHolds t es) :
    t.present = s.present ∧ t.freq = s.freq := by
  refine ⟨State.present_eq_of_isKey fun b => ?_, State.freq_eq_of_freqOf fun b => ?_⟩
  · rw [Bool.eq_iff_iff, (ht b).1, (hs b).1]
  · rw [(ht b).2, (hs b).2]

theorem State.entries_congr {s t : State} (hp : t.present = s.present) (hf : t.freq = s.freq) :
    t.entries = s.entries := by
  rw [State.entries, State.entries, State.keys, State.keys, State.isKey_congr hp, State.freqOf_congr hf]

end Sys2Proof.Machine
end

section
/-! PROOFS. DECOMPRESS of a well-formed container (45_orchestration.md R202 to R207): it loads the header's table,
builds the tree of that table and unpacks the payload with it, so it gives back what COMPRESS packed. -/

namespace Sys2Proof.Machine

open Sys2Proof.Claims

/-! ## The header loaded (R202, R203) -/

/-- The state DECOMPRESS has after its HDR_READ of `es` and the symbol count `n`. -/
def State.containerLoaded (s : State) (es : List (Symbol × Word)) (n : Word) : State :=
  { s.invalidate.rewind.headerLoaded es (16 + 9 * es.length) with
    symCount := n
    rptHdr := BitVec.ofNat 64 (16 + 9 * es.length) }

/-- The state DECOMPRESS has before its UNPACK. -/
def State.containerBuilt (s : State) (es : List (Symbol × Word)) (n : Word) : State :=
  treeBuildBody (s.containerLoaded es n)

section
variable {s : State} {es : List (Symbol × Word)} {n : Word} {payload : List Byte}

theorem State.containerLoaded_eq (s : State) (es : List (Symbol × Word)) (n : Word) : s.containerLoaded es n = { s with
    freq := (s.containerLoaded es n).freq
    present := (s.containerLoaded es n).present
    symCount := n
    arena := []
    root := none
    rootValid := false
    treeBuilt := false
    s2cValid := false
    c2sValid := false
    rptHdr := BitVec.ofNat 64 (16 + 9 * es.length)
    inPtr := (s.containerLoaded es n).inPtr } := by
  obtain ⟨p, f, h⟩ := loadEntries_eq s.invalidate.rewind.clearTable es
  rw [State.containerLoaded, State.headerLoaded, h]
  rfl

theorem State.containerLoaded_tableHolds (s : State) (hnodup : (es.map Prod.fst).Nodup) (n : Word) :
    TableHolds (s.containerLoaded es n) es :=
  s.invalidate.rewind.headerLoaded_tableHolds hnodup (16 + 9 * es.length)

/-- A header is short, so in_ptr does not wrap at it, whatever the length of the input. -/
theorem State.containerLoaded_inPtr_toNat (s : State) (hnodup : (es.map Prod.fst).Nodup) (n : Word) :
    (s.containerLoaded es n).inPtr.toNat = 16 + 9 * es.length := by
  have hle := length_le_of_nodup_symbols hnodup
  have hptr : (s.containerLoaded es n).inPtr = BitVec.ofNat 64 (0 + (16 + 9 * es.length)) :=
    State.headerLoaded_inPtr _ es _
  rw [hptr, BitVec.toNat_ofNat, Nat.zero_add, Nat.mod_eq_of_lt (by omega)]

theorem State.containerLoaded_inData (s : State) (es : List (Symbol × Word)) (n : Word) :
    (s.containerLoaded es n).inData = s.inData := by
  rw [s.containerLoaded_eq es n]

/-- After the header the payload is left to be read. -/
theorem State.containerLoaded_unread (hnodup : (es.map Prod.fst).Nodup) (hdata : s.inData = header es n ++ payload) :
    (s.containerLoaded es n).unread = payload := by
  rw [State.unread, s.containerLoaded_inPtr_toNat hnodup, s.containerLoaded_inData, hdata, ← header_length es n,
    List.drop_left]

theorem exec_decompress_of_header (hin : s.inAvail = true) (hnodup : (es.map Prod.fst).Nodup)
    (hdata : s.inData = header es n ++ payload) :
    exec .decompress s =
      (if n = 0 then .done { s.containerLoaded es n with rptOrig := 0, rptPacked := 0 }
        else unpackBody (s.containerBuilt es n)).finish := by
  have hunread : s.invalidate.rewind.unread = header es n ++ payload := (State.unread_rewind _).trans hdata
  rw [exec, execDecompress, requireInput_attached hin, decompressBody, hdrReadBody_header hnodup hunread,
    Body.done_andThen]
  rfl

/-! ## The tree built and the payload unpacked (R202) -/

theorem State.containerBuilt_treeOk (s : State) (es : List (Symbol × Word)) (n : Word) :
    TreeOk (s.containerBuilt es n) :=
  ⟨fun hb => absurd hb Bool.noConfusion, rfl, rfl, (s.containerLoaded es n).arenaOk_buildArena⟩

/-- TREE_BUILD leaves no code table valid (10_state.md R53). -/
theorem State.containerBuilt_codeTablesOk (s : State) (es : List (Symbol × Word)) (n : Word) :
    CodeTablesOk (s.containerBuilt es n) :=
  ⟨fun hv => absurd hv Bool.noConfusion, fun hv => absurd hv Bool.noConfusion⟩

theorem State.containerBuilt_streamsOk (hin : s.inAvail = true) (hlen : s.inData.length ≤ Config.maxStream)
    (hnodup : (es.map Prod.fst).Nodup) (hdata : s.inData = header es n ++ payload) :
    StreamsOk (s.containerBuilt es n) := by
  have hinPtr : (s.containerBuilt es n).inPtr.toNat = 16 + 9 * es.length := s.containerLoaded_inPtr_toNat hnodup n
  have hinData : (s.containerBuilt es n).inData = s.inData := s.containerLoaded_inData es n
  have hle : 16 + 9 * es.length ≤ s.inData.length := by
    rw [hdata, List.length_append, header_length]
    exact Nat.le_add_right _ _
  refine ⟨by rwa [hinPtr, hinData], by rwa [hinData], fun h => ?_⟩
  have havail : (s.containerBuilt es n).inAvail = s.inAvail := by
    rw [State.containerBuilt, s.containerLoaded_eq es n]
    rfl
  exact absurd (h.symm.trans (havail.trans hin)) Bool.noConfusion

/-- The tree of DECOMPRESS is the one TREE_BUILD makes of any table with the header's entries. -/
theorem State.containerBuilt_tree (s : State) {w : State} (hnodup : (es.map Prod.fst).Nodup) (hw : TableHolds w es)
    (n : Word) : Part.Same .tree (treeBuildBody w).complete (s.containerBuilt es n) := by
  obtain ⟨hp, hf⟩ := tableHolds_unique hw (s.containerLoaded_tableHolds hnodup n)
  exact treeBuildBody_same_tree hp hf

/-- What DECOMPRESS leaves once its UNPACK has read `read` bytes and emitted `syms`. -/
theorem State.containerUnpacked_eq (s : State) {w : State} (hnodup : (es.map Prod.fst).Nodup) (hw : TableHolds w es)
    (n : Word) (read : Nat) (syms : List Symbol) : (s.containerBuilt es n).afterUnpack read syms = { s with
      out := s.out ++ syms
      freq := ((s.containerBuilt es n).afterUnpack read syms).freq
      present := ((s.containerBuilt es n).afterUnpack read syms).present
      symCount := n
      arena := (treeBuildBody w).complete.arena
      root := (treeBuildBody w).complete.root
      rootValid := (treeBuildBody w).complete.rootValid
      treeBuilt := true
      s2c := ((s.containerBuilt es n).afterUnpack read syms).s2c
      s2cValid := false
      c2s := ((s.containerBuilt es n).afterUnpack read syms).c2s
      c2sValid := true
      rptOrig := BitVec.ofNat 64 syms.length
      rptPacked := ((s.containerBuilt es n).afterUnpack read syms).rptPacked
      rptHdr := BitVec.ofNat 64 (16 + 9 * es.length)
      inPtr := ((s.containerBuilt es n).afterUnpack read syms).inPtr } := by
  obtain ⟨harena, hroot, _, hvalid⟩ := s.containerBuilt_tree hnodup hw n
  rw [← harena, ← hroot, ← hvalid, State.afterUnpack_frame_eq, State.containerBuilt, s.containerLoaded_eq es n]
  rfl

theorem State.containerUnpacked_tableHolds (s : State) (hnodup : (es.map Prod.fst).Nodup) (n : Word) (read : Nat)
    (syms : List Symbol) : TableHolds ((s.containerBuilt es n).afterUnpack read syms) es := by
  refine (tableHolds_congr ?_ ?_).2 (s.containerLoaded_tableHolds hnodup n) <;>
    rw [State.afterUnpack_frame_eq] <;> rfl

/-- The payload begins with the codes of `n` symbols. -/
theorem exec_decompress_of_codesAre (hin : s.inAvail = true) (hnodup : (es.map Prod.fst).Nodup)
    (hdata : s.inData = header es n ++ payload) {w : State} (hw : TableHolds w es) {syms : List Symbol}
    {cs : List BitString} (hlen : syms.length = n.toNat) (hpos : 1 ≤ n.toNat)
    (hcs : CodesAre (treeBuildBody w).complete syms cs) (hp : cs.flatten <+: streamBits payload) :
    exec .decompress s =
      .next ((s.containerBuilt es n).afterUnpack ((cs.flatten.length + 7) / 8) syms).complete := by
  have hn : n ≠ 0 := fun h => by simp [h] at hpos
  have hunread : (s.containerBuilt es n).unread = payload := State.containerLoaded_unread hnodup hdata
  have hcodes := (codesAre_congr (State.codes_congr (s.containerBuilt_tree hnodup hw n))).2 hcs
  rw [exec_decompress_of_header hin hnodup hdata, if_neg hn,
    unpackBody_of_codesAre (s.containerBuilt_treeOk es n) (s.containerBuilt_codeTablesOk es n) hlen (hlen ▸ hpos) hcodes
      (hunread.symm ▸ hp), Body.finish_done]

/-- The payload holds the codes of fewer than `n` symbols, and what is left of it begins with no code. -/
theorem exec_decompress_of_exhausted (hin : s.inAvail = true) (hnodup : (es.map Prod.fst).Nodup)
    (hdata : s.inData = header es n ++ payload) {w : State} (hw : TableHolds w es) {syms : List Symbol}
    {cs : List BitString} {left : BitString} (hlen : syms.length < n.toNat)
    (hcs : CodesAre (treeBuildBody w).complete syms cs) (hbits : streamBits payload = cs.flatten ++ left)
    (hleft : ∀ b c, (treeBuildBody w).complete.codes.lookup b = some c → ¬ c <+: left) :
    exec .decompress s = .next (((s.containerBuilt es n).afterUnpack payload.length syms).raise .corrupt) := by
  have hn : n ≠ 0 := fun h => by simp [h] at hlen
  have hunread : (s.containerBuilt es n).unread = payload := State.containerLoaded_unread hnodup hdata
  have hcongr := State.codes_congr (s.containerBuilt_tree hnodup hw n)
  rw [exec_decompress_of_header hin hnodup hdata, if_neg hn,
    unpackBody_of_exhausted (s.containerBuilt_treeOk es n) (s.containerBuilt_codeTablesOk es n) hlen
      ((codesAre_congr hcongr).2 hcs) (hunread.symm ▸ hbits) (hcongr ▸ hleft), hunread, Body.finish_raised]

end

/-! ## DECOMPRESS of a container (R202, R203) -/

/-- Settles O57: HDR_READ after the invalidation is all that happens. -/
theorem decompressOfNoSymbolsBuildsNoTree : Obligations.DecompressOfNoSymbolsBuildsNoTree := by
  intro s es payload hin _ hnodup hdata
  refine ⟨State.complete { s.containerLoaded es 0 with rptOrig := 0, rptPacked := 0 }, ?_, ?_,
    s.containerLoaded_tableHolds hnodup 0, State.containerLoaded_unread hnodup hdata,
    s.containerLoaded_inPtr_toNat hnodup 0⟩
  · rw [exec_decompress_of_header hin hnodup hdata, if_pos rfl, Body.finish_done]
  · rw [s.containerLoaded_eq es 0]
    rfl

/-- DECOMPRESS completes: it is never refused (60_exceptions.md R229). -/
theorem exists_exec_decompress (s : State) : ∃ t, exec .decompress s = .next t := by
  rcases everyCommandCompletes .decompress s with ⟨t, ht, _⟩ | ⟨h | h, _⟩
  · exact ⟨t, ht⟩
  · simp at h
  · simp at h

/-- Settles O56: UNPACK inside DECOMPRESS meets the payload, with the tree of the header's table built. -/
theorem decompressDecodesTheContainer : Obligations.DecompressDecodesTheContainer := by
  intro s w es n payload hin hmax hnodup hdata hpos hw
  obtain ⟨t, ht⟩ := exists_exec_decompress s
  refine ⟨(treeBuildBody w).complete, t, rfl, ht, fun syms cs hlen hcs hp => ?_⟩
  have hexec := exec_decompress_of_codesAre hin hnodup hdata hw hlen hpos hcs hp
  obtain rfl := Host.Outcome.next.inj (ht.symm.trans hexec)
  have hstreams := State.containerBuilt_streamsOk hin hmax hnodup hdata
  have hunread : (s.containerBuilt es n).unread = payload := State.containerLoaded_unread hnodup hdata
  have hread : (cs.flatten.length + 7) / 8 ≤ (s.containerBuilt es n).unread.length := by
    have := hp.length_le
    rw [streamBits_length] at this
    rw [hunread]
    omega
  have horig : BitVec.ofNat 64 syms.length = n := by rw [hlen, BitVec.ofNat_toNat, BitVec.setWidth_eq]
  refine ⟨(congrArg State.complete (s.containerUnpacked_eq hnodup hw n _ syms)).trans (by rw [horig]; rfl),
    s.containerUnpacked_tableHolds hnodup n ((cs.flatten.length + 7) / 8) syms, fun c b => ?_, ?_, ?_⟩
  · rw [← State.codes_congr (s.containerBuilt_tree hnodup hw n)]
    exact State.ensureC2s_symbolFor (s.containerBuilt_treeOk es n) (s.containerBuilt_codeTablesOk es n)
  · rw [State.complete_rptPacked, State.afterUnpack_rptPacked_toNat hstreams hread]
  · rw [State.complete_inPtr, State.afterUnpack_inPtr_toNat hstreams hread]
    exact congrArg (· + _) (s.containerLoaded_inPtr_toNat hnodup n)

/-! ## The container of COMPRESS (R200, R206) -/

/-- What COMPRESS appends: the header of some distinct entries and the packed codes of the input in the tree of their
table. -/
theorem exists_exec_compress {s : State} (hin : s.inAvail = true) (hlen : s.inData.length ≤ Config.maxStream) :
    ∃ (t w : State) (es : List (Symbol × Word)) (cs : List BitString) (payload : List Byte),
      exec .compress s = .next t ∧ t.err = s.err ∧ t.rptPacked = BitVec.ofNat 64 payload.length ∧
      t.out = s.out ++ (header es (BitVec.ofNat 64 s.inData.length) ++ payload) ∧
      (es.map Prod.fst).Nodup ∧ TableHolds w es ∧ CodesAre (treeBuildBody w).complete s.inData cs ∧
      PackedAs payload cs.flatten := by
  obtain ⟨t, es, cs, payload, hexec, hasc, _, htable, hcs, hpacked, ⟨u, hu, harena, hroot, _⟩, _, ht⟩ :=
    compressWritesTheContainer s hin hlen
  obtain rfl := Host.Outcome.next.inj hu
  have hcodes : t.codes = (treeBuildBody { s with freq := t.freq, present := t.present }).complete.codes := by
    rw [State.codes, harena, hroot]
    rfl
  refine ⟨t, { s with freq := t.freq, present := t.present }, es, cs, payload, hexec, ?_, ?_, ?_, ?_, htable,
    (codesAre_congr hcodes).1 hcs, hpacked⟩
  · rw [ht]
    rfl
  · rw [ht]
    rfl
  · rw [← List.append_assoc, ht]
    rfl
  · exact List.pairwise_map.2 (hasc.imp fun h he => h.ne (congrArg BitVec.toNat he))

theorem toNat_ofNat_length {bs : List Byte} (h : bs.length ≤ Config.maxStream) :
    (BitVec.ofNat 64 bs.length).toNat = bs.length :=
  Nat.mod_eq_of_lt (h.trans_lt (by decide))

/-- Settles O58: the packed codes begin with the codes of the input, and the tree that decodes them is the one that
coded them. -/
theorem decompressInvertsCompress : Obligations.DecompressInvertsCompress := by
  intro s hin hlen
  obtain ⟨t, w, es, cs, payload, hexec, herr, _, hout, hnodup, hw, hcs, _, hbits⟩ := exists_exec_compress hin hlen
  refine ⟨t, _, hexec, hout, herr, fun u huin hdata => ?_⟩
  have hcount := toNat_ofNat_length hlen
  rcases Nat.eq_zero_or_pos s.inData.length with hzero | hpos
  · have hn : BitVec.ofNat 64 s.inData.length = 0 := congrArg (BitVec.ofNat 64) hzero
    have hexec := exec_decompress_of_header huin hnodup hdata
    rw [if_pos hn, Body.finish_done, u.containerLoaded_eq] at hexec
    refine ⟨_, hexec, ?_, rfl, rfl⟩
    rw [List.eq_nil_of_length_eq_zero hzero, List.append_nil]
    rfl
  · have hexec := exec_decompress_of_codesAre huin hnodup hdata hw hcount.symm (hcount.symm ▸ hpos) hcs
      (hbits ▸ List.prefix_append _ _)
    rw [u.containerUnpacked_eq hnodup hw] at hexec
    exact ⟨_, hexec, rfl, rfl, rfl⟩

/-! ## Truncated payloads (R207) -/

/-- A beginning of some bit strings in a row, cut short, is some of them in full and a part of the next. -/
theorem exists_split_of_prefix_flatten {cs : List BitString} {bits : BitString} (hp : bits <+: cs.flatten)
    (hlt : bits.length < cs.flatten.length) :
    ∃ (m : Nat) (c left : BitString), cs[m]? = some c ∧ bits = (cs.take m).flatten ++ left ∧ left <+: c ∧
      left.length < c.length := by
  induction cs generalizing bits with
  | nil => simp at hlt
  | cons c cs ih =>
    rw [List.flatten_cons] at hp hlt
    rcases Nat.lt_or_ge bits.length c.length with hshort | hlong
    · exact ⟨0, c, bits, rfl, rfl, List.prefix_of_prefix_length_le hp (List.prefix_append _ _) hshort.le, hshort⟩
    · obtain ⟨bits, rfl⟩ := List.prefix_of_prefix_length_le (List.prefix_append _ _) hp hlong
      rw [List.prefix_append_right_inj] at hp
      simp only [List.length_append, Nat.add_lt_add_iff_left] at hlt
      obtain ⟨m, d, left, hd, rfl, hleft⟩ := ih hp hlt
      exact ⟨m + 1, d, left, hd, by rw [List.take_succ_cons, List.flatten_cons, List.append_assoc], hleft⟩

/-- A code cut short begins with no code (41_tree.md R133). -/
theorem not_code_prefix_of_proper_prefix {w : State} {a : Symbol} {c left : BitString}
    (hc : (treeBuildBody w).complete.codes.lookup a = some c) (hp : left <+: c) (hlt : left.length < c.length)
    (b : Symbol) (d : BitString) (hd : (treeBuildBody w).complete.codes.lookup b = some d) : ¬ d <+: left := by
  intro hdl
  obtain rfl := w.arenaOk_buildArena.codes_prefixFree (w.lookup_codes_treeBuild.1 hd) (w.lookup_codes_treeBuild.1 hc)
    (hdl.trans hp)
  obtain rfl := Option.some.inj (hd.symm.trans hc)
  exact Nat.not_lt.2 hdl.length_le hlt

theorem streamBits_prefix {xs ys : List Byte} (h : xs <+: ys) : streamBits xs <+: streamBits ys := by
  obtain ⟨rest, rfl⟩ := h
  rw [streamBits_append]
  exact List.prefix_append _ _

/-- Some bytes cut from the end of packed bits cut some of the bits. -/
theorem packedAs_take {payload : List Byte} {bits : BitString} (h : PackedAs payload bits) {k : Nat} (hk : 1 ≤ k)
    (hle : k ≤ payload.length) :
    streamBits (payload.take (payload.length - k)) <+: bits ∧
      (streamBits (payload.take (payload.length - k))).length < bits.length := by
  obtain ⟨hlen, hbits⟩ := h
  have hcut : (streamBits (payload.take (payload.length - k))).length < bits.length := by
    rw [streamBits_length, List.length_take]
    omega
  have hp := streamBits_prefix (List.take_prefix (payload.length - k) payload)
  rw [hbits] at hp
  exact ⟨List.prefix_of_prefix_length_le hp (List.prefix_append _ _) hcut.le, hcut⟩

/-- The bits cut off take the input's last symbols with them: some first `m` symbols can still be matched, and what is
left after their codes begins with no code. -/
theorem exists_codesAre_take {w : State} {syms : List Symbol} {cs : List BitString}
    (hcs : CodesAre (treeBuildBody w).complete syms cs) {bits : BitString} (hp : bits <+: cs.flatten)
    (hlt : bits.length < cs.flatten.length) :
    ∃ (m : Nat) (left : BitString), m < syms.length ∧ CodesAre (treeBuildBody w).complete (syms.take m) (cs.take m) ∧
      bits = (cs.take m).flatten ++ left ∧
      ∀ b c, (treeBuildBody w).complete.codes.lookup b = some c → ¬ c <+: left := by
  obtain ⟨m, c, left, hc, hbits, hleft, hshort⟩ := exists_split_of_prefix_flatten hp hlt
  unfold CodesAre at hcs ⊢
  obtain ⟨a, ha, hcode⟩ : ∃ a, syms[m]? = some a ∧ (treeBuildBody w).complete.codes.lookup a = some c := by
    rw [← Option.map_eq_some_iff, ← List.getElem?_map, hcs, List.getElem?_map, hc]
    rfl
  refine ⟨m, left, (List.getElem?_eq_some_iff.1 ha).1, ?_, hbits, not_code_prefix_of_proper_prefix hcode hleft hshort⟩
  rw [List.map_take, List.map_take, hcs]

/-- Settles O59: UNPACK inside DECOMPRESS meets the end of the input unstopped; and a cut payload holds the codes of the
first symbols and a part of the next code. -/
theorem truncatedPayloadIsCorrupt : Obligations.TruncatedPayloadIsCorrupt := by
  refine ⟨fun s w es n payload hin hmax hnodup hdata hw => ?_, fun s hin _ hlen => ?_⟩
  · obtain ⟨t, ht⟩ := exists_exec_decompress s
    refine ⟨(treeBuildBody w).complete, t, rfl, ht, fun syms cs left hlen hcs hbits hleft => ?_⟩
    have hexec := exec_decompress_of_exhausted hin hnodup hdata hw hlen hcs hbits hleft
    obtain rfl := Host.Outcome.next.inj (ht.symm.trans hexec)
    have hstreams := State.containerBuilt_streamsOk hin hmax hnodup hdata
    have hread : payload.length ≤ (s.containerBuilt es n).unread.length :=
      (congrArg List.length (State.containerLoaded_unread hnodup hdata)).ge
    refine ⟨congrArg (State.raise · .corrupt) (s.containerUnpacked_eq hnodup hw n _ syms),
      s.containerUnpacked_tableHolds hnodup n payload.length syms, Nat.mod_eq_of_lt (hlen.trans n.isLt), ?_, ?_⟩
    · rw [State.raise_rptPacked, State.afterUnpack_rptPacked_toNat hstreams hread]
    · rw [State.raise_inPtr, State.afterUnpack_inPtr_toNat hstreams hread, hdata, List.length_append, header_length]
      exact congrArg (· + _) (s.containerLoaded_inPtr_toNat hnodup n)
  · obtain ⟨t, w, es, cs, payload, hexec, _, hrpt, hout, hnodup, hw, hcs, hpacked⟩ := exists_exec_compress hin hlen
    refine ⟨t, _, hexec, hout, fun u k huin hk hkle hdata => ?_⟩
    have hk' : k ≤ payload.length := hkle.trans (by rw [hrpt]; exact Nat.mod_le _ _)
    rw [List.length_append, Nat.add_sub_assoc hk', List.take_length_add_append] at hdata
    obtain ⟨hp, hlt⟩ := packedAs_take hpacked hk hk'
    obtain ⟨m, left, hm, hcs, hbits, hleft⟩ := exists_codesAre_take hcs hp hlt
    have hcount : (s.inData.take m).length = m := List.length_take_of_le hm.le
    have hexec := exec_decompress_of_exhausted huin hnodup hdata hw
      (by rwa [hcount, toNat_ofNat_length hlen]) hcs hbits hleft
    rw [u.containerUnpacked_eq hnodup hw] at hexec
    exact ⟨_, m, hexec, rfl, rfl, hm, rfl⟩

end Sys2Proof.Machine
end

section
/-! PROOFS. What COMPRESS and DECOMPRESS append and leave depends on the input alone (45_orchestration.md R205). -/

namespace Sys2Proof.Machine

open Sys2Proof.Claims

theorem Part.Same.symm {p : Part} {s t : State} (h : p.Same s t) : p.Same t s := by
  cases p <;> simp_all [Part.Same]

/-- From `s` to `t` and from `s'` to `t'` the same bytes are appended, and the same table and tree are left. -/
def LeaveAlike (s s' t t' : State) : Prop :=
  (∃ appended, t.out = s.out ++ appended ∧ t'.out = s'.out ++ appended) ∧
  t'.present = t.present ∧ t'.freq = t.freq ∧ Part.Same .tree t' t

/-- The same reports and SYM_COUNT. -/
def SameReports (t t' : State) : Prop :=
  t.rptOrig = t'.rptOrig ∧ t.rptPacked = t'.rptPacked ∧ t.rptHdr = t'.rptHdr ∧ t.symCount = t'.symCount

section
variable {s s' : State}

/-! ## COMPRESS (R200) -/

/-- The table of the input is the table of its bytes. -/
theorem ftClearBody_scanned_congr (hdata : s.inData = s'.inData) (hlen : s.inData.length ≤ Config.maxStream) :
    (ftClearBody s'.rewind).scanned.present = (ftClearBody s.rewind).scanned.present ∧
      (ftClearBody s'.rewind).scanned.freq = (ftClearBody s.rewind).scanned.freq := by
  have hunread : s.rewind.unread = s.inData := s.unread_rewind
  have hunread' : s'.rewind.unread = s.inData := s'.unread_rewind.trans hdata.symm
  have hlt : s.inData.length < 2 ^ 64 := hlen.trans_lt (by decide)
  refine ⟨State.present_eq_of_isKey fun b => ?_, State.freq_eq_of_freqOf fun b => BitVec.eq_of_toNat_eq ?_⟩
  · rw [ftClearBody_scanned_isKey, ftClearBody_scanned_isKey, hunread, hunread']
  · rw [ftClearBody_scanned_freqOf (hunread' ▸ hlt), ftClearBody_scanned_freqOf (hunread ▸ hlt), hunread, hunread']

theorem compressed_alike (hin : s.inAvail = true) (hin' : s'.inAvail = true) (hdata : s.inData = s'.inData)
    (hlen : s.inData.length ≤ Config.maxStream) (payload : List Byte) :
    LeaveAlike s s' (s.compressed payload) (s'.compressed payload) ∧
      SameReports (s.compressed payload) (s'.compressed payload) := by
  obtain ⟨hp, hf⟩ := ftClearBody_scanned_congr hdata hlen
  have hentries := State.entries_congr hp hf
  have heq := State.compressed_frame_eq hin hlen payload
  have heq' := State.compressed_frame_eq hin' (hdata ▸ hlen) payload
  rw [hentries, ← hdata] at heq'
  have htree := s.compressed_tree payload
  have htree' := (treeBuildBody_same_tree hp hf).trans (s'.compressed_tree payload)
  refine ⟨⟨⟨header (ftClearBody s.rewind).scanned.entries (BitVec.ofNat 64 s.inData.length) ++ payload, ?_, ?_⟩,
    ?_, ?_, ?_⟩, ?_⟩
  · rw [← List.append_assoc, heq]
  · rw [← List.append_assoc, heq']
  · rw [State.compressed_present, State.compressed_present, hp]
  · rw [State.compressed_freq, State.compressed_freq, hf]
  · exact htree'.symm.trans htree
  · rw [heq, heq']
    exact ⟨rfl, rfl, rfl, rfl⟩

theorem exec_compress_alike (hin : s.inAvail = true) (hin' : s'.inAvail = true) (hdata : s.inData = s'.inData)
    (hlen : s.inData.length ≤ Config.maxStream) :
    ∃ t t', exec .compress s = .next t ∧ exec .compress s' = .next t' ∧ LeaveAlike s s' t t' ∧ SameReports t t' := by
  obtain ⟨hp, hf⟩ := ftClearBody_scanned_congr hdata hlen
  obtain ⟨cs, hcs⟩ := exists_codesAre_treeBuild (ftClearBody s.rewind).scanned (syms := s.inData) fun b hb => by
    rwa [ftClearBody_scanned_isKey, State.unread_rewind, decide_eq_true_iff]
  have hcs' := (codesAre_congr (State.codes_congr (treeBuildBody_same_tree hp hf))).2 hcs
  rw [hdata] at hcs'
  obtain ⟨halike, hreports⟩ := compressed_alike hin hin' hdata hlen (packFlush (packed cs.flatten))
  exact ⟨_, _, exec_compress_of_codesAre hin hlen hcs, exec_compress_of_codesAre hin' (hdata ▸ hlen) hcs',
    halike, hreports⟩

/-! ## DECOMPRESS (R202, R204) -/

section
variable {es : List (Symbol × Word)}

theorem exec_decompress_of_malformedHeader {read : Nat} (hin : s.inAvail = true)
    (h : MalformedHeader s.inData es read) :
    exec .decompress s = .next ((s.invalidate.rewind.headerLoaded es read).raise .header) := by
  rw [exec, execDecompress, requireInput_attached hin, decompressBody,
    hdrReadBody_malformed h s.invalidate.unread_rewind, Body.raised_andThen, Body.finish_raised]

/-- A malformed header loads the same entries, and nothing is appended. -/
theorem headerLoaded_alike (hnodup : (es.map Prod.fst).Nodup) (read : Nat) :
    LeaveAlike s s' (s.invalidate.rewind.headerLoaded es read) (s'.invalidate.rewind.headerLoaded es read) := by
  obtain ⟨hp, hf⟩ := tableHolds_unique (s.invalidate.rewind.headerLoaded_tableHolds hnodup read)
    (s'.invalidate.rewind.headerLoaded_tableHolds hnodup read)
  refine ⟨⟨[], ?_, ?_⟩, hp, hf, ?_⟩
  · rw [List.append_nil, State.headerLoaded_eq]
    rfl
  · rw [List.append_nil, State.headerLoaded_eq]
    rfl
  · rw [s.invalidate.rewind.headerLoaded_eq es, s'.invalidate.rewind.headerLoaded_eq es]
    exact ⟨rfl, rfl, rfl, rfl⟩

theorem containerUnpacked_alike (hnodup : (es.map Prod.fst).Nodup) (n : Word) (read : Nat) (syms : List Symbol) :
    LeaveAlike s s' ((s.containerBuilt es n).afterUnpack read syms) ((s'.containerBuilt es n).afterUnpack read syms) ∧
      SameReports ((s.containerBuilt es n).afterUnpack read syms)
        ((s'.containerBuilt es n).afterUnpack read syms) := by
  have hw := s.containerLoaded_tableHolds hnodup n
  obtain ⟨hp, hf⟩ := tableHolds_unique (s.containerUnpacked_tableHolds hnodup n read syms)
    (s'.containerUnpacked_tableHolds hnodup n read syms)
  have heq := s.containerUnpacked_eq hnodup hw n read syms
  have heq' := s'.containerUnpacked_eq hnodup hw n read syms
  refine ⟨⟨⟨syms, ?_, ?_⟩, hp, hf, ?_⟩, ?_⟩
  · rw [heq]
  · rw [heq']
  · rw [heq, heq']
    exact ⟨rfl, rfl, rfl, rfl⟩
  · rw [heq, heq']
    exact ⟨rfl, rfl, rfl, rfl⟩

/-- The code→symbol table with which DECOMPRESS unpacks is that of the header's entries. -/
theorem containerBuilt_symbolFor_congr (hnodup : (es.map Prod.fst).Nodup) (n : Word) :
    (s'.containerBuilt es n).ensureC2s.symbolFor = (s.containerBuilt es n).ensureC2s.symbolFor := by
  have hw := s.containerLoaded_tableHolds hnodup n
  have hcodes := State.codes_congr (s.containerBuilt_tree hnodup hw n)
  have hcodes' := State.codes_congr (s'.containerBuilt_tree hnodup hw n)
  funext c
  rw [State.symbolFor, State.symbolFor, State.ensureC2s_table (s.containerBuilt_codeTablesOk es n),
    State.ensureC2s_table (s'.containerBuilt_codeTablesOk es n), hcodes, hcodes']

/-- UNPACK inside DECOMPRESS reads the same payload with the same codes, so it ends alike. -/
theorem exec_decompress_alike_of_header {n : Word} {payload : List Byte} (hin : s.inAvail = true)
    (hin' : s'.inAvail = true) (hnodup : (es.map Prod.fst).Nodup) (hdata : s.inData = header es n ++ payload)
    (hdata' : s'.inData = header es n ++ payload) :
    ∃ t t', exec .decompress s = .next t ∧ exec .decompress s' = .next t' ∧ LeaveAlike s s' t t' ∧
      SameReports t t' := by
  rw [exec_decompress_of_header hin hnodup hdata, exec_decompress_of_header hin' hnodup hdata']
  by_cases hn : n = 0
  · obtain ⟨hp, hf⟩ := tableHolds_unique (s.containerLoaded_tableHolds hnodup n)
      (s'.containerLoaded_tableHolds hnodup n)
    rw [if_pos hn, if_pos hn]
    refine ⟨_, _, rfl, rfl, ⟨⟨[], ?_, ?_⟩, hp, hf, ?_⟩, ?_⟩
    · rw [List.append_nil, s.containerLoaded_eq]
      rfl
    · rw [List.append_nil, s'.containerLoaded_eq]
      rfl
    · rw [s.containerLoaded_eq, s'.containerLoaded_eq]
      exact ⟨rfl, rfl, rfl, rfl⟩
    · exact ⟨rfl, rfl, rfl, rfl⟩
  · obtain ⟨u, read, hloop⟩ : ∃ u read,
        unpackLoop (s.containerBuilt es n).ensureC2s.symbolFor n.toNat payload .start 0 = (u, read) := ⟨_, _, rfl⟩
    have hloop' := hloop
    rw [← containerBuilt_symbolFor_congr hnodup n (s' := s')] at hloop'
    rw [← State.containerLoaded_unread hnodup hdata] at hloop
    rw [← State.containerLoaded_unread hnodup hdata'] at hloop'
    obtain ⟨halike, hreports⟩ := containerUnpacked_alike (s := s) (s' := s') hnodup n read u.emitted
    rw [if_neg hn, if_neg hn, unpackBody_of_unpackLoop (s := s.containerBuilt es n) hn hloop,
      unpackBody_of_unpackLoop (s := s'.containerBuilt es n) hn hloop']
    cases u.stopped with
    | true => exact ⟨_, _, rfl, rfl, halike, hreports⟩
    | false => exact ⟨_, _, rfl, rfl, halike, hreports⟩

end

theorem exec_decompress_alike (hin : s.inAvail = true) (hin' : s'.inAvail = true) (hdata : s.inData = s'.inData) :
    ∃ t t', exec .decompress s = .next t ∧ exec .decompress s' = .next t' ∧ LeaveAlike s s' t t' ∧
      (SameReports t t' ∨ t = failed 6 t ∧ t' = failed 6 t') := by
  rcases header_or_malformedHeader s.inData with ⟨es, n, payload, hnodup, hheader⟩ | ⟨es, read, hbad⟩
  · obtain ⟨t, t', ht, ht', halike, hreports⟩ :=
      exec_decompress_alike_of_header hin hin' hnodup hheader (hdata ▸ hheader)
    exact ⟨t, t', ht, ht', halike, .inl hreports⟩
  · exact ⟨_, _, exec_decompress_of_malformedHeader hin hbad, exec_decompress_of_malformedHeader hin' (hdata ▸ hbad),
      headerLoaded_alike (malformedHeader_nodup hbad) read, .inr ⟨rfl, rfl⟩⟩

end

/-- Settles O60: COMPRESS reads only the input, and DECOMPRESS only its header's entries and its payload. -/
theorem wholeOperationsDependOnTheInputAlone : Obligations.WholeOperationsDependOnTheInputAlone := by
  intro s s' i hi hin hin' hdata hlen
  obtain ⟨t, t', ht, ht', ⟨⟨appended, hout, hout'⟩, hp, hf, harena, hroot, hbuilt, hvalid⟩, hreports⟩ :
      ∃ t t', exec i s = .next t ∧ exec i s' = .next t' ∧ LeaveAlike s s' t t' ∧
        (SameReports t t' ∨ t = failed 6 t ∧ t' = failed 6 t') := by
    rcases hi with rfl | rfl
    · obtain ⟨t, t', ht, ht', halike, hreports⟩ := exec_compress_alike hin hin' hdata hlen
      exact ⟨t, t', ht, ht', halike, .inl hreports⟩
    · exact exec_decompress_alike hin hin' hdata
  exact ⟨t, t', appended, ht, ht', hout, hout',
    fun b => ⟨(congrFun (State.isKey_congr hp) b).symm, (congrFun (State.freqOf_congr hf) b).symm⟩,
    harena, hroot, hbuilt, hvalid, hreports⟩

end Sys2Proof.Machine
end

section
/-! PROOFS. What the idle machine keeps, and the two precondition checks before any change (60_exceptions.md R222, R225,
R227, R234). -/

namespace Sys2Proof.Machine

open Sys2Proof.Claims

/-- With a tree built and no input, the check that fails is the one of ERR_INPUT. -/
theorem requireTree_requireInput_detached_finish {s : State} (hb : s.treeBuilt = true) (hin : s.inAvail = false)
    (body : State → Body) : (requireTree (requireInput body) s).finish = .next (failed 1 s) := by
  rw [requireTree_built hb]
  exact requireInput_detached_finish hin body

/-- Settles O7: of the three kinds of step only the idle one can happen. -/
theorem idleMachineKeepsItsState : Obligations.IdleMachineKeepsItsState := by
  intro s hb hq
  rcases step_cases s with ⟨hbusy, _, _⟩ | ⟨_, _, hidle⟩ | ⟨m, rest, hcons, _, _⟩
  · exact absurd (hbusy.symm.trans hb) Bool.noConfusion
  · exact hidle
  · exact absurd (hcons.symm.trans hq) (List.cons_ne_nil m rest)

/-- Settles O23: each of the five commands is a body behind the input check, and PACK and UNPACK check the tree first. -/
theorem errInputBeforeAnyChange : Obligations.ErrInputBeforeAnyChange := by
  refine fun s hin => ⟨fun i hi => ?_, fun hb =>
    ⟨requireTree_requireInput_detached_finish hb hin packBody,
      requireTree_requireInput_detached_finish hb hin unpackBody⟩⟩
  simp only [List.mem_cons, List.not_mem_nil, or_false] at hi
  rcases hi with rfl | rfl | rfl | rfl | rfl
  · exact requireInput_detached_finish hin ftScanBody
  · exact requireInput_detached_finish hin _
  · exact requireInput_detached_finish hin hdrReadBody
  · exact requireInput_detached_finish hin compressBody
  · exact requireInput_detached_finish hin decompressBody

/-- Settles O24: each of the four queries is a body behind the tree check, which comes before the input check of PACK
and UNPACK. -/
theorem errNoTreeBeforeAnyChange : Obligations.ErrNoTreeBeforeAnyChange := by
  intro s sym hb i hi
  simp only [List.mem_cons, List.not_mem_nil, or_false] at hi
  rcases hi with rfl | rfl | rfl | rfl
  · exact requireTree_missing_finish hb _
  · exact requireTree_missing_finish hb _
  · exact requireTree_missing_finish hb (requireInput packBody)
  · exact requireTree_missing_finish hb (requireInput unpackBody)

end Sys2Proof.Machine
end

section
/-! PROOFS. What a reset leaves, with no command pending and with one (70_reset_and_hazards.md R250, R251). -/

namespace Sys2Proof.Machine

open Sys2Proof.Claims

/-! ## The two cases of a reset -/

/-- A reset is admitted whether or not a command is pending (R250; log 1). -/
theorem hostAct_reset (s : State) : hostAct .reset s = .next (hostReset s) := by
  unfold hostAct
  split <;> rfl

theorem hostReset_of_idle {s : State} (hb : s.busy = false) : hostReset s = s.resetEngine := by
  simp [hostReset, hb]

theorem hostReset_of_busy {s : State} (hb : s.busy = true) :
    hostReset s = { s.resetEngine with
      out := s.out ++ (pendingOutput s).take (Config.resetPrefix s.draws)
      draws := s.draws + 1 } :=
  if_pos hb

/-! ## The table at reset (R251) -/

theorem State.resetEngine_isKey (s : State) (b : Symbol) : s.resetEngine.isKey b = false :=
  State.clearTable_isKey s.resetEngine b

theorem State.resetEngine_freqOf (s : State) (b : Symbol) : s.resetEngine.freqOf b = 0 :=
  State.clearTable_freqOf s.resetEngine b

theorem State.resetEngine_readReg_tblCount (s : State) : s.resetEngine.readReg .tblCount = 0 :=
  congrArg (BitVec.ofNat 64) popcount_zero

/-- Settles O18: with no command pending a reset is `resetEngine`, whose fields are those of `State.reset` but for OUT
and the host's part. -/
theorem resetGivesEveryResetValue : Obligations.ResetGivesEveryResetValue := by
  intro s hb
  refine ⟨s.resetEngine, hostReset_of_idle hb ▸ hostAct_reset s, ?_⟩
  have htable (b : Symbol) : s.resetEngine.freqOf b = 0 ∧ s.resetEngine.isKey b = false :=
    ⟨s.resetEngine_freqOf b, s.resetEngine_isKey b⟩
  simp [htable, s.resetEngine_readReg_tblCount, State.reset]

/-! ## What the pending command would append (R250) -/

/-- A pending command, legal or not, only appends to OUT (R42). -/
theorem runPending_out_prefix {s t : State} (h : runPending s = .next t) : s.out <+: t.out := by
  rcases runPending_cases s with ⟨i, _, hrun⟩ | ⟨e, _, hrun⟩
  · obtain ⟨hout, _⟩ := commandsOnlyAppendToTheOutput i s t (hrun ▸ h)
    exact hout
  · obtain rfl := Host.Outcome.next.inj (hrun ▸ h)
    exact List.prefix_rfl

theorem out_append_pendingOutput {s t : State} (h : runPending s = .next t) : s.out ++ pendingOutput s = t.out := by
  rw [pendingOutput, h]
  exact List.prefix_iff_eq_append.1 (runPending_out_prefix h)

/-- An illegal word appends nothing: its step is the raise of ERR_ILLEGAL (30_encoding.md R95). -/
theorem pendingOutput_of_illegal {s : State} (hw : ¬ LegalWord s.cmd) : pendingOutput s = [] := by
  rcases runPending_cases s with ⟨i, hi, _⟩ | ⟨e, _, hrun⟩
  · exact absurd (legalWord_of_decode hi) hw
  · simp [pendingOutput, hrun]

/-- Settles O19: what stays on OUT is a `take` of the pending output, and what is lost is the matching `drop`. -/
theorem resetAbandonsThePendingCommand : Obligations.ResetAbandonsThePendingCommand := by
  intro s hb
  refine ⟨hostReset s, (pendingOutput s).take (Config.resetPrefix s.draws), hostAct_reset s, ?_, ?_,
    fun t ht => ⟨(pendingOutput s).drop (Config.resetPrefix s.draws), ?_⟩, fun hw => ?_⟩
  · rw [hostReset_of_busy hb]; rfl
  · rw [hostReset_of_busy hb]
  · rw [List.append_assoc, List.take_append_drop, out_append_pendingOutput ht]
  · rw [pendingOutput_of_illegal hw, List.take_nil]

end Sys2Proof.Machine
end
